-- ==== Sys2Proof/Word.lean ====
section
/-! DEFINITION. The word types of the block: bytes, 16-bit and 32-bit words (00_scope.md, "Types"). -/

namespace Sys2Proof

/-- One byte of video or colour memory, or one channel of a pixel. -/
abbrev Byte := BitVec 8

/-- `Word16` of 00_scope.md: a register, a pattern-name word, a pixel word, a colour word. -/
abbrev Word16 := BitVec 16

/-- `Word32` of 00_scope.md: a header or data word of an event, a two-word datum. -/
abbrev Word32 := BitVec 32

end Sys2Proof
end

