-- ==== Sys2Proof/Config.lean ====
section
/-! DEFINITION. The configuration record of 00_scope.md section 4, and the free values the spec leaves OPEN.
The default instance of the record is in Machine/Defaults.lean. -/

namespace Sys2Proof

/-- A colour without its alpha channel: the `(r, g, b)` of EXPAND1 and EXPAND2 (R92, R98). -/
structure Rgb where
  r : Byte
  g : Byte
  b : Byte
deriving DecidableEq, Repr, Inhabited

/-- `Pixel = (r, g, b, a)` with four 8-bit unsigned channels (00_scope.md "Types", R99). -/
structure Pixel where
  r : Byte
  g : Byte
  b : Byte
  a : Byte
deriving DecidableEq, Repr, Inhabited

/-- The storage spaces a host transaction can name (R222, `BadMemAccess`). -/
inductive Space where
  | vram
  | cram
deriving DecidableEq, Repr

/-- The three behaviours of colour memory (R90). -/
inductive CramMode where
  | legacy
  | wide
  | extended
deriving DecidableEq, Repr

/-- The five background layers (R1, R106): four scroll layers and the rotation layer. -/
inductive Bg where
  | nbg0
  | nbg1
  | nbg2
  | nbg3
  | rbg0
deriving DecidableEq, Repr

/-- The six drawable layers (R185): the five background layers and the externally supplied sprite layer. -/
inductive Layer where
  | bg (b : Bg)
  | sprite
deriving DecidableEq, Repr

/-- One entry `(off, lsb, width)` of P_REGMAP (R14, R61): a contiguous bit range of one register. -/
structure Field where
  off : Nat
  lsb : Nat
  width : Nat
deriving DecidableEq, Repr

/-- The register fields of one background layer (R19 to R24). A field that the tables give to some layers only
(BMEN, BMSZ, BMP, SCX, SCY) is an Option: `none` where the layer has none. -/
structure LayerFields where
  on : Field
  tpdis : Field
  chsz : Field
  bmen : Option Field
  bmsz : Option Field
  chcn : Field
  pnb : Field
  cnsm : Field
  supp : Field
  bmp : Option Field
  plsz : Field
  mpof : Field
  mp : List Field
  scx : Option Field
  scy : Option Field
  caos : Field
  pri : Field
  ccen : Field
  ccrt : Field
  coen : Field
  cosl : Field
deriving DecidableEq, Repr

/-- P_REGMAP (R14): every register field the rules name. `rpta` is the offset of the long-word RPTA (R23). -/
structure RegMap where
  disp : Field
  lsmd : Field
  vreso : Field
  hreso : Field
  vblank : Field
  hblank : Field
  odd : Field
  charext : Field
  crmd : Field
  rpta : Nat
  coar : Field
  coag : Field
  coab : Field
  cobr : Field
  cobg : Field
  cobb : Field
  nbg0 : LayerFields
  nbg1 : LayerFields
  nbg2 : LayerFields
  nbg3 : LayerFields
  rbg0 : LayerFields
deriving DecidableEq, Repr

/-- The size of one entry of the rotation-parameter table: 2 or 4 bytes (R172). -/
inductive EntrySize where
  | two
  | four
deriving DecidableEq, Repr

/-- One row of P_ROT_LAYOUT (R172): where an entry stands and which of its bits count. -/
structure RotEntry where
  off : Nat
  size : EntrySize
  top : Nat
  low : Nat
  frac : Nat
deriving DecidableEq, Repr

/-- P_ROT_LAYOUT (R172): one row for each of the 23 values of R26. -/
structure RotLayout where
  xst : RotEntry
  yst : RotEntry
  zst : RotEntry
  deltaXst : RotEntry
  deltaYst : RotEntry
  deltaX : RotEntry
  deltaY : RotEntry
  matA : RotEntry
  matB : RotEntry
  matC : RotEntry
  matD : RotEntry
  matE : RotEntry
  matF : RotEntry
  px : RotEntry
  py : RotEntry
  pz : RotEntry
  cx : RotEntry
  cy : RotEntry
  cz : RotEntry
  mx : RotEntry
  my : RotEntry
  kx : RotEntry
  ky : RotEntry
deriving DecidableEq, Repr

/-- The configuration record of 00_scope.md section 4. Its OPEN functions (P_EXPAND2, P_BLEND, P_IRQ_CODES) are the
constants without a body below; P_BYTE_ORDER, P_CRAM_BYTES and P_CELL_PX are held at the values the rules print
(log entry 12). The tables are indexed by the value of their register field. -/
structure Config where
  /-- P_VRAM_BYTES (R27, R42). -/
  vramBytes : Nat
  /-- P_REGMAP (R14). -/
  regmap : RegMap
  /-- P_HRES (R84): the width selected by HRESO[1:0]. -/
  hres : List Nat
  /-- P_VRES (R84): the height selected by VRESO. -/
  vres : List Nat
  /-- P_INTERLACE (R84): whether this value of LSMD doubles the height. -/
  interlace : List Bool
  /-- P_CRAM_MODE (R91): the mode selected by CRMD. -/
  cramModes : List CramMode
  /-- P_CRAM_BANK_BYTES (R95). -/
  cramBankBytes : Nat
  /-- P_CLEAR (R198). -/
  clear : Pixel
  /-- P_MAP_WH of a scroll layer (R112). -/
  mapWHScroll : Nat
  /-- P_MAP_WH of the rotation layer (R112). -/
  mapWHRot : Nat
  /-- The plane shape `(planeW, planeH)` selected by PLSZ (R110; R76 and U4 make the reserved value a parameter). -/
  planeShapes : List (Nat × Nat)
  /-- P_ROT_LAYOUT (R172). -/
  rotLayout : RotLayout
  /-- P_INNER_RANK_SPRITE (R187). -/
  innerRankSprite : Nat
deriving DecidableEq, Repr

/-- The five notification codes (R214): distinct abstract tokens. -/
inductive IrqCode where
  | hbin
  | hbout
  | vbin
  | vbout
  | slaveVbin
deriving DecidableEq, Repr

/-- P_EXPAND2 (R72, R98): OPEN. It takes exactly the two words read and yields one colour. Free value, log entry 6. -/
opaque Config.expand2 : Word16 → Word16 → Rgb

/-- P_BLEND (R196) where the source pixel is not opaque: OPEN, a function of `dst` and `src` only (law B2). Law B1 is in
`Machine.blend`. Free value, log entry 7. -/
opaque Config.blendOpen : Pixel → Pixel → Pixel

/-- The pixel at `(x, y)` of the `k`-th surface whose pixels the spec calls unspecified (R31, R83): a free value,
log entry 5. -/
opaque Config.freePixel : Nat → Nat → Nat → Pixel

/-- The byte that an address of a memory holds at launch (R31, R240): a free input of the launch state, and so a free value until
the address is written. Log entry 4. -/
opaque Config.launchByte : Space → Nat → Byte

/-- P_IRQ_CODES (R214): the number of each notification code. OPEN; no rule depends on it. Log entry 17. -/
opaque Config.irqCode : IrqCode → Nat

end Sys2Proof
end

