-- ==== Sys2Proof/Syntax.lean ====
section
/-! DEFINITION. What the block decodes and executes: one constructor of `Instr` per row of spec/opcode_table.json
(input events, data formats, internal operations), and the records those operations take and answer. -/

namespace Sys2Proof

/-- `Depth ∈ {0, 1, 2, 3, 4}` (00_scope.md "Types", R109): 4-bit, 8-bit, 11-bit, 16-bit direct, 32-bit direct. -/
inductive Depth where
  | d0
  | d1
  | d2
  | d3
  | d4
deriving DecidableEq, Repr

/-- A pattern name of one word in the layout of auxMode 0 (R62): `ppppvhcccccccccc`. -/
structure FmtPn1A0 where
  p : BitVec 4
  v : Bool
  h : Bool
  c : BitVec 10
deriving DecidableEq, Repr

/-- A pattern name of one word in the layout of auxMode 1 (R63): `ppppcccccccccccc`. -/
structure FmtPn1A1 where
  p : BitVec 4
  c : BitVec 12
deriving DecidableEq, Repr

/-- A pattern name of two words (R64): `vhssxxxxxpppppppxccccccccccccccc`, without its ignored bits. -/
structure FmtPn2 where
  v : Bool
  h : Bool
  s : BitVec 2
  p : BitVec 7
  c : BitVec 15
deriving DecidableEq, Repr

/-- Supplement data (R65): `sspppccccc`. -/
structure FmtSupp where
  s : BitVec 2
  p : BitVec 3
  c : BitVec 5
deriving DecidableEq, Repr

/-- A word of four 4-bit pixels (R69): `aaaabbbbccccdddd`, `a` the leftmost. -/
structure FmtPixD0 where
  a : BitVec 4
  b : BitVec 4
  c : BitVec 4
  d : BitVec 4
deriving DecidableEq, Repr

/-- A word of two 8-bit pixels (R69): `aaaaaaaabbbbbbbb`, `a` the leftmost. -/
structure FmtPixD1 where
  a : BitVec 8
  b : BitVec 8
deriving DecidableEq, Repr

/-- A word holding one 11-bit pixel (R69): `xxxxxiiiiiiiiiii`, without its ignored bits. -/
structure FmtPixD2 where
  i : BitVec 11
deriving DecidableEq, Repr

/-- A 16-bit direct-colour pixel (R69): `obbbbbgggggrrrrr`. -/
structure FmtPixD3 where
  o : Bool
  b : BitVec 5
  g : BitVec 5
  r : BitVec 5
deriving DecidableEq, Repr

/-- A 32-bit direct-colour pixel (R69): the opacity flag, bit 15 of the first word, and both words, which are the
arguments of P_EXPAND2. -/
structure FmtPixD4 where
  o : Bool
  w1 : Word16
  w2 : Word16
deriving DecidableEq, Repr

/-- A single-word colour (R71): `xbbbbbgggggrrrrr`, without bit 15. -/
structure FmtColor1 where
  b : BitVec 5
  g : BitVec 5
  r : BitVec 5
deriving DecidableEq, Repr

/-- A colour-offset value (R61): `xxxxxxxsvvvvvvvv`, the 9-bit two's-complement number of bits 8:0. -/
structure FmtColofs where
  value : BitVec 9
deriving DecidableEq, Repr

/-- `PatInfo` (43_tile_addressing.md section 3): what every pattern-name decode answers. `special` is decoded and read by
no rule (R139); that the chip ignores it is not claimed. -/
structure PatInfo where
  charNo : BitVec 15
  palAddr : BitVec 7
  flipV : Bool
  flipH : Bool
  special : BitVec 2
deriving DecidableEq, Repr

/-- The five pattern-name decodes (R138). -/
inductive PnForm where
  | oneA0W1
  | oneA0W2
  | oneA1W1
  | oneA1W2
  | two
deriving DecidableEq, Repr

/-- `RotParams` (R26): 23 rational values. `mx` and `my` are loaded and enter no formula (R180). -/
structure RotParams where
  xst : Rat
  yst : Rat
  zst : Rat
  deltaXst : Rat
  deltaYst : Rat
  deltaX : Rat
  deltaY : Rat
  matA : Rat
  matB : Rat
  matC : Rat
  matD : Rat
  matE : Rat
  matF : Rat
  px : Rat
  py : Rat
  pz : Rat
  cx : Rat
  cy : Rat
  cz : Rat
  mx : Rat
  my : Rat
  kx : Rat
  ky : Rat
deriving DecidableEq, Repr

/-- A layer's colour-offset triple (R115): signed integers. -/
structure ColorOffset where
  r : Int
  g : Int
  b : Int
deriving DecidableEq, Repr

/-- `LayerCfg` (R25): what `LAYER.INIT` derives for one background layer. `rot` is the rotation layer's record and `none`
for a scroll layer; `planeSel` holds one entry per map index. -/
structure LayerCfg where
  layer : Bg
  enabled : Bool
  bitmap : Bool
  depth : Depth
  scrollX : Nat
  scrollY : Nat
  rot : Option RotParams
  planeW : Nat
  planeH : Nat
  mapWH : Nat
  patternDataSize : Nat
  patternWH : Nat
  pageWH : Nat
  auxMode : Nat
  supp : BitVec 10
  mapOffset : Nat
  planeSel : List Nat
  bmW : Nat
  bmH : Nat
  bmBase : Nat
  bmPal : BitVec 7
  transparencyEnable : Bool
  colorOffset : ColorOffset
  alpha : Byte
  cramBankSel : Nat
  priority : Nat
  innerRank : Nat
  charExt : Bool
deriving DecidableEq, Repr

/-- Why two event words are not an event (R60, R75). R223 does not distinguish these sub-conditions: each is the one fault
`BadEvent`. -/
inductive DecodeError where
  /-- `W0[31:28]` is 0x6, 0x7 or 0xC to 0xF. -/
  | undefinedClass
  /-- `W0[27:26]` is not a size code the class allows. -/
  | illegalSize
  /-- A bit of `W0` that the class fixes at 0 is 1. -/
  | reservedBits
deriving DecidableEq, Repr

/-- The operations of the block: one constructor per row of spec/opcode_table.json (R78).

The first group is the input events of R60, with the operands their two words carry. The second group is the data formats
of 30_encoding.md: the operand is the datum as it is read, and the operation splits it into its named fields. The third
group is the internal operations, with the operands their rules give them; a layer index is a plain number, because an
index outside 0 to 5 is a fault of the operation (R185, R222). -/
inductive Instr where
  -- input events (R60)
  | regwr (off : BitVec 24) (val : Word16)
  | regwrRes (val : Word16)
  | regwrRammode (val : Word16)
  | regwrPri0F8 (val : Word16)
  | regwrPri0FA (val : Word16)
  | regwrPri0FC (val : Word16)
  | regrd (off : BitVec 24)
  | vramwrB (addr : BitVec 24) (val : Byte)
  | vramwrW (addr : BitVec 24) (val : Word16)
  | vramwrL (addr : BitVec 24) (val : Word32)
  | vramrdB (addr : BitVec 24)
  | vramrdW (addr : BitVec 24)
  | vramrdL (addr : BitVec 24)
  | cramwrB (addr : BitVec 24) (val : Byte)
  | cramwrW (addr : BitVec 24) (val : Word16)
  | cramwrL (addr : BitVec 24) (val : Word32)
  | cramrdB (addr : BitVec 24)
  | cramrdW (addr : BitVec 24)
  | cramrdL (addr : BitVec 24)
  | hbin
  | hbout
  | vbin (slaveActive : Bool)
  | vbout
  -- data formats (R61 to R71)
  | fmtPn1A0 (w : Word16)
  | fmtPn1A1 (w : Word16)
  | fmtPn2 (w : Word32)
  | fmtSupp (s : BitVec 10)
  | fmtPixD0 (w : Word16)
  | fmtPixD1 (w : Word16)
  | fmtPixD2 (w : Word16)
  | fmtPixD3 (w : Word16)
  | fmtPixD4 (w : Word32)
  | fmtColor1 (w : Word16)
  | fmtColofs (w : Word16)
  -- internal operations: the palette multiplexer (41_color_memory.md)
  | cramMode
  | resolveLegacy (index : Nat) (alpha : Byte) (bankSel : Nat)
  | resolveWide (index : Nat) (alpha : Byte) (bankSel : Nat)
  | resolveExt (index : Nat) (alpha : Byte) (bankSel : Nat)
  | expand1 (w : Word16)
  | expand2 (w1 w2 : Word16)
  -- layer configuration (42_layer_config.md)
  | layerInit (l : Bg)
  -- tile-map addressing (43_tile_addressing.md)
  | scrollCoord (cfg : LayerCfg) (sx sy : Nat)
  | planeAddr (cfg : LayerCfg) (k : Nat)
  | pnAddr (cfg : LayerCfg) (pageAddr xg yg : Nat)
  | pnDec1wA0W1 (pn : Word16) (s : BitVec 10) (depth : Depth)
  | pnDec1wA0W2 (pn : Word16) (s : BitVec 10) (depth : Depth)
  | pnDec1wA1W1 (pn : Word16) (s : BitVec 10) (depth : Depth)
  | pnDec1wA1W2 (pn : Word16) (s : BitVec 10) (depth : Depth)
  | pnDec2w (w1 w2 : Word16)
  | charFin (cfg : LayerCfg) (charNo : BitVec 15)
  | tilePixel (cfg : LayerCfg) (x y : Int)
  -- pixel fetch (44_pixel_fetch.md)
  | pixFetchD0 (cfg : LayerCfg) (base : Nat) (palAddr : BitVec 7) (px py : Nat)
  | pixFetchD1 (cfg : LayerCfg) (base : Nat) (palAddr : BitVec 7) (px py : Nat)
  | pixFetchD2 (cfg : LayerCfg) (base : Nat) (palAddr : BitVec 7) (px py : Nat)
  | pixFetchD3 (cfg : LayerCfg) (base : Nat) (palAddr : BitVec 7) (px py : Nat)
  | pixFetchD4 (cfg : LayerCfg) (base : Nat) (palAddr : BitVec 7) (px py : Nat)
  | bitmapPixel (cfg : LayerCfg) (x y : Int)
  | layerPixel (cfg : LayerCfg) (sx sy : Nat)
  -- the affine-rotation engine (45_rotation.md)
  | rotAddr
  | rotLoad
  | rotCoord (rot : RotParams) (hcnt vcnt : Int)
  | rotPixel (cfg : LayerCfg) (sx sy : Nat)
  -- the compositor (46_compositor.md)
  | getPri (index : Nat)
  | innerPri (index : Nat)
  | sort
  | colofs (p : Pixel) (cr cg cb : Int)
  | blend (dst src : Pixel)
  | layerDraw (index : Nat)
  | drawframe
  | present
deriving DecidableEq, Repr

end Sys2Proof
end

