-- ==== Sys2Proof/WellFormed.lean ====
section
/-! DEFINITION. Well-formed configurations, layer records and operations: the operand ranges that the spec's tables and its
"Operands" lines give. What breaks the port contract (a bad offset, address or layer index) is not here: such an event is
decoded and its operation faults (R222, R223). -/

namespace Sys2Proof

/-- A field lies in one register of the bank (R11, R61): an even offset up to 0x1FE, and bits inside 15:0. -/
def Field.wf (f : Field) : Bool :=
  f.off % 2 == 0 && decide (f.off ≤ 0x1FE) && decide (f.lsb + f.width ≤ 16)

/-- The field lies in one register and is exactly `n` bits wide. -/
def Field.wfWidth (n : Nat) (f : Field) : Bool :=
  f.wf && f.width == n

/-- The field lies in one register and is at most `n` bits wide. -/
def Field.wfAtMost (n : Nat) (f : Field) : Bool :=
  f.wf && decide (f.width ≤ n)

/-- Every field of a layer lies in one register and has the width that R19 to R24 give it. Where the width differs by layer
(R20, R106) or the source names a wider field (auxMode, R76), the width is a bound. -/
def LayerFields.wf (l : LayerFields) : Bool :=
  l.on.wfWidth 1 && l.tpdis.wfWidth 1 && l.chsz.wfWidth 1 && l.bmen.all (Field.wfWidth 1) && l.bmsz.all (Field.wfAtMost 2)
    && l.chcn.wfAtMost 3 && l.pnb.wfWidth 1 && l.cnsm.wfAtMost 2 && l.supp.wfWidth 10 && l.bmp.all (Field.wfWidth 3)
    && l.plsz.wfAtMost 2 && l.mpof.wfWidth 3 && l.mp.all (Field.wfWidth 8) && l.scx.all (Field.wfWidth 11)
    && l.scy.all (Field.wfWidth 11) && l.caos.wfWidth 3 && l.pri.wfWidth 3 && l.ccen.wfWidth 1 && l.ccrt.wfWidth 5
    && l.coen.wfWidth 1 && l.cosl.wfWidth 1

/-- P_REGMAP is well-formed: every field is, and the three offsets that the source fixes stand (R14): resolution select at
0x000, status at 0x004, RAM mode at 0x00E. The three flags are single bits (R13) at different positions. -/
def RegMap.wf (m : RegMap) : Bool :=
  m.disp.wfWidth 1 && m.lsmd.wfWidth 2 && m.vreso.wfWidth 2 && m.hreso.wfAtMost 3 && m.vblank.wfWidth 1
    && m.hblank.wfWidth 1 && m.odd.wfWidth 1 && m.charext.wfWidth 1 && m.crmd.wfWidth 2
    && m.rpta % 2 == 0 && decide (m.rpta ≤ 0x1FC)
    && m.coar.wfWidth 9 && m.coag.wfWidth 9 && m.coab.wfWidth 9 && m.cobr.wfWidth 9 && m.cobg.wfWidth 9 && m.cobb.wfWidth 9
    && m.nbg0.wf && m.nbg1.wf && m.nbg2.wf && m.nbg3.wf && m.rbg0.wf
    && m.disp.off == 0x000 && m.lsmd.off == 0x000 && m.vreso.off == 0x000 && m.hreso.off == 0x000
    && m.vblank.off == 0x004 && m.hblank.off == 0x004 && m.odd.off == 0x004 && m.crmd.off == 0x00E
    && m.vblank.lsb != m.hblank.lsb && m.vblank.lsb != m.odd.lsb && m.hblank.lsb != m.odd.lsb

/-- A map of `n` planes per side has one selector byte for each plane (R22, R112). -/
def LayerFields.mapWf (l : LayerFields) (n : Nat) : Bool :=
  (n == 2 || n == 4) && l.mp.length == n * n

/-- A configuration is well-formed: the size of video memory is a power of two that 24 address bits reach (00_scope.md
section 4, R60), every table has one entry per value of its field, a plane is 1 or 2 pages per side (R110), every layer has the
selector bytes of its map (R112), and the six inner ranks are distinct (R189). -/
def Config.wf (c : Config) : Bool :=
  c.regmap.wf
    && c.vramBytes == 2 ^ Nat.log2 c.vramBytes && decide (c.vramBytes ≤ 0x1000000)
    && c.hres.length == 4 && c.vres.length == 4 && c.interlace.length == 4 && c.cramModes.length == 4
    && c.planeShapes.length == 4 && c.planeShapes.all (fun p => (p.1 == 1 || p.1 == 2) && (p.2 == 1 || p.2 == 2))
    && c.regmap.nbg0.mapWf c.mapWHScroll && c.regmap.nbg1.mapWf c.mapWHScroll && c.regmap.nbg2.mapWf c.mapWHScroll
    && c.regmap.nbg3.mapWf c.mapWHScroll && c.regmap.rbg0.mapWf c.mapWHRot
    && decide (5 ≤ c.innerRankSprite)

/-- A colour-offset component is in −256 .. 255 (R194). -/
def offsetRange (x : Int) : Bool :=
  decide (-256 ≤ x) && decide (x ≤ 255)

/-- A layer record is well-formed: the ranges of R25, and a rotation record on the rotation layer alone (R26). -/
def LayerCfg.wf (g : LayerCfg) : Bool :=
  (g.planeW == 1 || g.planeW == 2) && (g.planeH == 1 || g.planeH == 2) && (g.mapWH == 2 || g.mapWH == 4)
    && (g.patternDataSize == 1 || g.patternDataSize == 2) && (g.patternWH == 1 || g.patternWH == 2)
    && g.pageWH == 64 / g.patternWH && g.planeSel.length == g.mapWH * g.mapWH
    && decide (g.scrollX ≤ 2047) && decide (g.scrollY ≤ 2047) && decide (g.mapOffset ≤ 7)
    && g.planeSel.all (fun v => decide (v ≤ 255)) && decide (g.cramBankSel ≤ 7) && decide (g.priority ≤ 7)
    && decide (g.innerRank ≤ 4) && (g.bmW == 512 || g.bmW == 1024) && (g.bmH == 256 || g.bmH == 512)
    && offsetRange g.colorOffset.r && offsetRange g.colorOffset.g && offsetRange g.colorOffset.b
    && g.rot.isSome == (g.layer == .rbg0)

/-- The offsets whose register write has a row of its own in spec/opcode_table.json (R60: the row with more mask bits set
applies; R82: the trigger offsets). -/
def refinedOffset (off : BitVec 24) : Bool :=
  off == 0x000#24 || off == 0x00E#24 || off == 0x0F8#24 || off == 0x0FA#24 || off == 0x0FC#24

/-- Well-formed operations. Of the events only the generic REGWR has a condition: at a trigger offset the refined row
applies. The internal operations have the operand ranges their rules give. -/
def Instr.wf : Instr → Bool
  | .regwr off _ => !refinedOffset off
  | .resolveLegacy _ _ sel | .resolveWide _ _ sel | .resolveExt _ _ sel => decide (sel ≤ 7)
  | .scrollCoord cfg _ _ => cfg.wf && cfg.rot.isNone
  | .planeAddr cfg k => cfg.wf && decide (k < cfg.mapWH * cfg.mapWH)
  | .pnAddr cfg _ xg yg => cfg.wf && decide (xg < 512) && decide (yg < 512)
  | .charFin cfg _ => cfg.wf
  | .tilePixel cfg _ _ => cfg.wf && !cfg.bitmap
  | .pixFetchD0 cfg _ _ px py => cfg.wf && cfg.depth == .d0 && decide (px < 8 * cfg.patternWH) && decide (py < 8 * cfg.patternWH)
  | .pixFetchD1 cfg _ _ px py => cfg.wf && cfg.depth == .d1 && decide (px < 8 * cfg.patternWH) && decide (py < 8 * cfg.patternWH)
  | .pixFetchD2 cfg _ _ px py => cfg.wf && cfg.depth == .d2 && decide (px < 8 * cfg.patternWH) && decide (py < 8 * cfg.patternWH)
  | .pixFetchD3 cfg _ _ px py => cfg.wf && cfg.depth == .d3 && decide (px < 8 * cfg.patternWH) && decide (py < 8 * cfg.patternWH)
  | .pixFetchD4 cfg _ _ px py => cfg.wf && cfg.depth == .d4 && decide (px < 8 * cfg.patternWH) && decide (py < 8 * cfg.patternWH)
  | .bitmapPixel cfg _ _ => cfg.wf && cfg.bitmap
  | .layerPixel cfg _ _ => cfg.wf
  | .rotPixel cfg _ _ => cfg.wf && cfg.rot.isSome
  | .colofs _ cr cg cb => offsetRange cr && offsetRange cg && offsetRange cb
  | .regwrRes _ | .regwrRammode _ | .regwrPri0F8 _ | .regwrPri0FA _ | .regwrPri0FC _ | .regrd _
  | .vramwrB _ _ | .vramwrW _ _ | .vramwrL _ _ | .vramrdB _ | .vramrdW _ | .vramrdL _
  | .cramwrB _ _ | .cramwrW _ _ | .cramwrL _ _ | .cramrdB _ | .cramrdW _ | .cramrdL _
  | .hbin | .hbout | .vbin _ | .vbout
  | .fmtPn1A0 _ | .fmtPn1A1 _ | .fmtPn2 _ | .fmtSupp _ | .fmtPixD0 _ | .fmtPixD1 _ | .fmtPixD2 _ | .fmtPixD3 _
  | .fmtPixD4 _ | .fmtColor1 _ | .fmtColofs _
  | .cramMode | .expand1 _ | .expand2 _ _ | .layerInit _
  | .pnDec1wA0W1 _ _ _ | .pnDec1wA0W2 _ _ _ | .pnDec1wA1W1 _ _ _ | .pnDec1wA1W2 _ _ _ | .pnDec2w _ _
  | .rotAddr | .rotLoad | .rotCoord _ _ _ | .getPri _ | .innerPri _ | .sort | .blend _ _ | .layerDraw _
  | .drawframe | .present => true

end Sys2Proof
end

