-- ==== Sys2Proof/Decode.lean ====
section
/-! DEFINITION. The decoder and the encoder of input events (R60, R75), and the splitting and packing of the data formats
(R61 to R71). Both directions are written from the spec's encodings. -/

namespace Sys2Proof

/-! ## Data formats -/

/-- R62: `ppppvhcccccccccc`. -/
def pn1A0OfWord (w : Word16) : FmtPn1A0 :=
  { p := w.extractLsb' 12 4, v := w.getLsbD 11, h := w.getLsbD 10, c := w.extractLsb' 0 10 }

/-- R62, packed. -/
def wordOfPn1A0 (f : FmtPn1A0) : Word16 :=
  f.p ++ BitVec.ofBool f.v ++ BitVec.ofBool f.h ++ f.c

/-- R63: `ppppcccccccccccc`. -/
def pn1A1OfWord (w : Word16) : FmtPn1A1 :=
  { p := w.extractLsb' 12 4, c := w.extractLsb' 0 12 }

/-- R63, packed. -/
def wordOfPn1A1 (f : FmtPn1A1) : Word16 :=
  f.p ++ f.c

/-- R64: `vhssxxxxxpppppppxccccccccccccccc`, the first word in the upper half. -/
def pn2OfWord (w : Word32) : FmtPn2 :=
  { v := w.getLsbD 31, h := w.getLsbD 30, s := w.extractLsb' 28 2, p := w.extractLsb' 16 7, c := w.extractLsb' 0 15 }

/-- R64, packed with every ignored bit 0. -/
def wordOfPn2 (f : FmtPn2) : Word32 :=
  BitVec.ofBool f.v ++ BitVec.ofBool f.h ++ f.s ++ 0#5 ++ f.p ++ 0#1 ++ f.c

/-- R65: `sspppccccc`. -/
def suppOfBits (w : BitVec 10) : FmtSupp :=
  { s := w.extractLsb' 8 2, p := w.extractLsb' 5 3, c := w.extractLsb' 0 5 }

/-- R65, packed. -/
def bitsOfSupp (f : FmtSupp) : BitVec 10 :=
  f.s ++ f.p ++ f.c

/-- R69, depth 0: `aaaabbbbccccdddd`. -/
def pixD0OfWord (w : Word16) : FmtPixD0 :=
  { a := w.extractLsb' 12 4, b := w.extractLsb' 8 4, c := w.extractLsb' 4 4, d := w.extractLsb' 0 4 }

/-- R69, depth 0, packed. -/
def wordOfPixD0 (f : FmtPixD0) : Word16 :=
  f.a ++ f.b ++ f.c ++ f.d

/-- R69, depth 1: `aaaaaaaabbbbbbbb`. -/
def pixD1OfWord (w : Word16) : FmtPixD1 :=
  { a := w.extractLsb' 8 8, b := w.extractLsb' 0 8 }

/-- R69, depth 1, packed. -/
def wordOfPixD1 (f : FmtPixD1) : Word16 :=
  f.a ++ f.b

/-- R69, depth 2: `xxxxxiiiiiiiiiii`. -/
def pixD2OfWord (w : Word16) : FmtPixD2 :=
  { i := w.extractLsb' 0 11 }

/-- R69, depth 2, packed with every ignored bit 0. -/
def wordOfPixD2 (f : FmtPixD2) : Word16 :=
  0#5 ++ f.i

/-- R69, depth 3: `obbbbbgggggrrrrr`. -/
def pixD3OfWord (w : Word16) : FmtPixD3 :=
  { o := w.getLsbD 15, b := w.extractLsb' 10 5, g := w.extractLsb' 5 5, r := w.extractLsb' 0 5 }

/-- R69, depth 3, packed. -/
def wordOfPixD3 (f : FmtPixD3) : Word16 :=
  BitVec.ofBool f.o ++ f.b ++ f.g ++ f.r

/-- R69, depth 4: bit 15 of the first word is the opacity flag and both words are the arguments of P_EXPAND2. -/
def pixD4OfWord (w : Word32) : FmtPixD4 :=
  { o := w.getLsbD 31, w1 := w.extractLsb' 16 16, w2 := w.extractLsb' 0 16 }

/-- R69, depth 4, packed: the flag is a bit of the first word. -/
def wordOfPixD4 (f : FmtPixD4) : Word32 :=
  f.w1 ++ f.w2

/-- R71: `xbbbbbgggggrrrrr`. -/
def color1OfWord (w : Word16) : FmtColor1 :=
  { b := w.extractLsb' 10 5, g := w.extractLsb' 5 5, r := w.extractLsb' 0 5 }

/-- R71, packed with bit 15 clear. -/
def wordOfColor1 (f : FmtColor1) : Word16 :=
  0#1 ++ f.b ++ f.g ++ f.r

/-- R61: `xxxxxxxsvvvvvvvv`. -/
def colofsOfWord (w : Word16) : FmtColofs :=
  { value := w.extractLsb' 0 9 }

/-- R61, packed with every ignored bit 0. -/
def wordOfColofs (f : FmtColofs) : Word16 :=
  0#7 ++ f.value

/-! ## Input events (R60) -/

/-- The header word: class in 31:28, size code in 27:26, bit 25 zero, bit 24, offset or address in 23:0. -/
def headerWord (cls : BitVec 4) (size : BitVec 2) (b24 : Bool) (addr : BitVec 24) : Word32 :=
  cls ++ size ++ 0#1 ++ BitVec.ofBool b24 ++ addr

/-- A register write (R78): at a trigger offset the refined row of the table. -/
def regwrForm (off : BitVec 24) (val : Word16) : Instr :=
  if off == 0x000#24 then .regwrRes val
  else if off == 0x00E#24 then .regwrRammode val
  else if off == 0x0F8#24 then .regwrPri0F8 val
  else if off == 0x0FA#24 then .regwrPri0FA val
  else if off == 0x0FC#24 then .regwrPri0FC val
  else .regwr off val

/-- A register event: the size code must be 1 and bit 24 must be 0. -/
def regEvent (size : BitVec 2) (b24 : Bool) (i : Instr) : Except DecodeError Instr :=
  if size != 1#2 then .error .illegalSize
  else if b24 then .error .reservedBits
  else .ok i

/-- A memory event: the size code picks the form of 1, 2 or 4 bytes, 3 is illegal, and bit 24 must be 0. -/
def memEvent (size : BitVec 2) (b24 : Bool) (b w l : Instr) : Except DecodeError Instr :=
  if size == 3#2 then .error .illegalSize
  else if b24 then .error .reservedBits
  else .ok (if size == 0#2 then b else if size == 1#2 then w else l)

/-- An edge event: the size code and the address field must be 0, and so must bit 24 unless the class uses it. -/
def edgeEvent (size : BitVec 2) (b24 : Bool) (addr : BitVec 24) (i : Instr) : Except DecodeError Instr :=
  if size != 0#2 then .error .illegalSize
  else if b24 || addr != 0#24 then .error .reservedBits
  else .ok i

/-- The decode of R60 on the fields of the header. The data word gives the value written: its low byte, low half or all of
it, by the form. -/
def decodeFields (cls : BitVec 4) (size : BitVec 2) (b24 : Bool) (addr : BitVec 24) (w1 : Word32) :
    Except DecodeError Instr :=
  match cls.toNat with
  | 0x0 => regEvent size b24 (regwrForm addr (w1.extractLsb' 0 16))
  | 0x1 => regEvent size b24 (.regrd addr)
  | 0x2 => memEvent size b24 (.vramwrB addr (w1.extractLsb' 0 8)) (.vramwrW addr (w1.extractLsb' 0 16)) (.vramwrL addr w1)
  | 0x3 => memEvent size b24 (.vramrdB addr) (.vramrdW addr) (.vramrdL addr)
  | 0x4 => memEvent size b24 (.cramwrB addr (w1.extractLsb' 0 8)) (.cramwrW addr (w1.extractLsb' 0 16)) (.cramwrL addr w1)
  | 0x5 => memEvent size b24 (.cramrdB addr) (.cramrdW addr) (.cramrdL addr)
  | 0x8 => edgeEvent size b24 addr .hbin
  | 0x9 => edgeEvent size b24 addr .hbout
  | 0xA => edgeEvent size false addr (.vbin b24)
  | 0xB => edgeEvent size b24 addr .vbout
  | _ => .error .undefinedClass

/-- The decoder: total on any two words, rejecting by name. -/
def decode (w0 w1 : Word32) : Except DecodeError Instr :=
  if w0.getLsbD 25 then .error .reservedBits
  else decodeFields (w0.extractLsb' 28 4) (w0.extractLsb' 26 2) (w0.getLsbD 24) (w0.extractLsb' 0 24) w1

/-- The encoder of R60. A data format is not an event and an internal operation has no encoding (R78): for those, none. -/
def encode : Instr → Option (Word32 × Word32)
  | .regwr off val => some (headerWord 0x0#4 1#2 false off, val.setWidth 32)
  | .regwrRes val => some (headerWord 0x0#4 1#2 false 0x000#24, val.setWidth 32)
  | .regwrRammode val => some (headerWord 0x0#4 1#2 false 0x00E#24, val.setWidth 32)
  | .regwrPri0F8 val => some (headerWord 0x0#4 1#2 false 0x0F8#24, val.setWidth 32)
  | .regwrPri0FA val => some (headerWord 0x0#4 1#2 false 0x0FA#24, val.setWidth 32)
  | .regwrPri0FC val => some (headerWord 0x0#4 1#2 false 0x0FC#24, val.setWidth 32)
  | .regrd off => some (headerWord 0x1#4 1#2 false off, 0#32)
  | .vramwrB addr val => some (headerWord 0x2#4 0#2 false addr, val.setWidth 32)
  | .vramwrW addr val => some (headerWord 0x2#4 1#2 false addr, val.setWidth 32)
  | .vramwrL addr val => some (headerWord 0x2#4 2#2 false addr, val)
  | .vramrdB addr => some (headerWord 0x3#4 0#2 false addr, 0#32)
  | .vramrdW addr => some (headerWord 0x3#4 1#2 false addr, 0#32)
  | .vramrdL addr => some (headerWord 0x3#4 2#2 false addr, 0#32)
  | .cramwrB addr val => some (headerWord 0x4#4 0#2 false addr, val.setWidth 32)
  | .cramwrW addr val => some (headerWord 0x4#4 1#2 false addr, val.setWidth 32)
  | .cramwrL addr val => some (headerWord 0x4#4 2#2 false addr, val)
  | .cramrdB addr => some (headerWord 0x5#4 0#2 false addr, 0#32)
  | .cramrdW addr => some (headerWord 0x5#4 1#2 false addr, 0#32)
  | .cramrdL addr => some (headerWord 0x5#4 2#2 false addr, 0#32)
  | .hbin => some (headerWord 0x8#4 0#2 false 0#24, 0#32)
  | .hbout => some (headerWord 0x9#4 0#2 false 0#24, 0#32)
  | .vbin slaveActive => some (headerWord 0xA#4 0#2 slaveActive 0#24, 0#32)
  | .vbout => some (headerWord 0xB#4 0#2 false 0#24, 0#32)
  | .fmtPn1A0 _ | .fmtPn1A1 _ | .fmtPn2 _ | .fmtSupp _ | .fmtPixD0 _ | .fmtPixD1 _ | .fmtPixD2 _ | .fmtPixD3 _
  | .fmtPixD4 _ | .fmtColor1 _ | .fmtColofs _
  | .cramMode | .resolveLegacy _ _ _ | .resolveWide _ _ _ | .resolveExt _ _ _ | .expand1 _ | .expand2 _ _ | .layerInit _
  | .scrollCoord _ _ _ | .planeAddr _ _ | .pnAddr _ _ _ _
  | .pnDec1wA0W1 _ _ _ | .pnDec1wA0W2 _ _ _ | .pnDec1wA1W1 _ _ _ | .pnDec1wA1W2 _ _ _ | .pnDec2w _ _
  | .charFin _ _ | .tilePixel _ _ _
  | .pixFetchD0 _ _ _ _ _ | .pixFetchD1 _ _ _ _ _ | .pixFetchD2 _ _ _ _ _ | .pixFetchD3 _ _ _ _ _ | .pixFetchD4 _ _ _ _ _
  | .bitmapPixel _ _ _ | .layerPixel _ _ _
  | .rotAddr | .rotLoad | .rotCoord _ _ _ | .rotPixel _ _ _ | .getPri _ | .innerPri _ | .sort | .colofs _ _ _ _ | .blend _ _
  | .layerDraw _ | .drawframe | .present => none

/-- The instruction the decoder reads from an event whose bits are `w`, numbered as the opcode table numbers them: bit 0 is
bit 0 of W0, bit 32 is bit 0 of W1, and every bit from `nbits` on is 0. -/
def decodeTableWord (nbits w : Nat) : Option Instr :=
  match decode (BitVec.ofNat 32 (w % 2 ^ nbits)) (BitVec.ofNat 32 ((w % 2 ^ nbits) / 2 ^ 32)) with
  | .ok i => some i
  | .error _ => none

end Sys2Proof
end

