-- ==== Sys2Proof/Machine/Defaults.lean ====
section
/-! DEFINITION. The default instance of the configuration (00_scope.md section 4): the register map of 10_state.md section 5,
the tables of R84, R91, R110, the rotation-table layout of R172, and the constants the rules print. -/

namespace Sys2Proof

/-- A one-bit field. -/
def bitField (off lsb : Nat) : Field := { off := off, lsb := lsb, width := 1 }

/-- `MP[L][k]` for k = 0 .. n − 1 (R22): two selector bytes per register, the low byte first. -/
def planeSelectorFields (base n : Nat) : List Field :=
  (List.range n).map (fun k => { off := base + 2 * (k / 2), lsb := 8 * (k % 2), width := 8 })

/-- The fields of NBG0 (R19 to R24). -/
def defaultNbg0 : LayerFields where
  on := bitField 0x020 0
  tpdis := bitField 0x020 8
  chsz := bitField 0x028 0
  bmen := some (bitField 0x028 1)
  bmsz := some { off := 0x028, lsb := 2, width := 2 }
  chcn := { off := 0x028, lsb := 4, width := 3 }
  pnb := bitField 0x030 15
  cnsm := bitField 0x030 14
  supp := { off := 0x030, lsb := 0, width := 10 }
  bmp := some { off := 0x02C, lsb := 0, width := 3 }
  plsz := { off := 0x03A, lsb := 0, width := 2 }
  mpof := { off := 0x03C, lsb := 0, width := 3 }
  mp := planeSelectorFields 0x040 4
  scx := some { off := 0x070, lsb := 0, width := 11 }
  scy := some { off := 0x074, lsb := 0, width := 11 }
  caos := { off := 0x0E4, lsb := 0, width := 3 }
  pri := { off := 0x0F8, lsb := 0, width := 3 }
  ccen := bitField 0x0EC 0
  ccrt := { off := 0x108, lsb := 0, width := 5 }
  coen := bitField 0x110 0
  cosl := bitField 0x112 0

/-- The fields of NBG1 (R19 to R24). -/
def defaultNbg1 : LayerFields where
  on := bitField 0x020 1
  tpdis := bitField 0x020 9
  chsz := bitField 0x028 8
  bmen := some (bitField 0x028 9)
  bmsz := some { off := 0x028, lsb := 10, width := 2 }
  chcn := { off := 0x028, lsb := 12, width := 2 }
  pnb := bitField 0x032 15
  cnsm := bitField 0x032 14
  supp := { off := 0x032, lsb := 0, width := 10 }
  bmp := some { off := 0x02C, lsb := 8, width := 3 }
  plsz := { off := 0x03A, lsb := 2, width := 2 }
  mpof := { off := 0x03C, lsb := 4, width := 3 }
  mp := planeSelectorFields 0x044 4
  scx := some { off := 0x080, lsb := 0, width := 11 }
  scy := some { off := 0x084, lsb := 0, width := 11 }
  caos := { off := 0x0E4, lsb := 4, width := 3 }
  pri := { off := 0x0F8, lsb := 8, width := 3 }
  ccen := bitField 0x0EC 1
  ccrt := { off := 0x108, lsb := 8, width := 5 }
  coen := bitField 0x110 1
  cosl := bitField 0x112 1

/-- The fields of NBG2 (R19 to R24): no bitmap mode, a one-bit depth field. -/
def defaultNbg2 : LayerFields where
  on := bitField 0x020 2
  tpdis := bitField 0x020 10
  chsz := bitField 0x02A 0
  bmen := none
  bmsz := none
  chcn := bitField 0x02A 1
  pnb := bitField 0x034 15
  cnsm := bitField 0x034 14
  supp := { off := 0x034, lsb := 0, width := 10 }
  bmp := none
  plsz := { off := 0x03A, lsb := 4, width := 2 }
  mpof := { off := 0x03C, lsb := 8, width := 3 }
  mp := planeSelectorFields 0x048 4
  scx := some { off := 0x090, lsb := 0, width := 11 }
  scy := some { off := 0x092, lsb := 0, width := 11 }
  caos := { off := 0x0E4, lsb := 8, width := 3 }
  pri := { off := 0x0FA, lsb := 0, width := 3 }
  ccen := bitField 0x0EC 2
  ccrt := { off := 0x10A, lsb := 0, width := 5 }
  coen := bitField 0x110 2
  cosl := bitField 0x112 2

/-- The fields of NBG3 (R19 to R24): no bitmap mode, a one-bit depth field. -/
def defaultNbg3 : LayerFields where
  on := bitField 0x020 3
  tpdis := bitField 0x020 11
  chsz := bitField 0x02A 4
  bmen := none
  bmsz := none
  chcn := bitField 0x02A 5
  pnb := bitField 0x036 15
  cnsm := bitField 0x036 14
  supp := { off := 0x036, lsb := 0, width := 10 }
  bmp := none
  plsz := { off := 0x03A, lsb := 6, width := 2 }
  mpof := { off := 0x03C, lsb := 12, width := 3 }
  mp := planeSelectorFields 0x04C 4
  scx := some { off := 0x094, lsb := 0, width := 11 }
  scy := some { off := 0x096, lsb := 0, width := 11 }
  caos := { off := 0x0E4, lsb := 12, width := 3 }
  pri := { off := 0x0FA, lsb := 8, width := 3 }
  ccen := bitField 0x0EC 3
  ccrt := { off := 0x10A, lsb := 8, width := 5 }
  coen := bitField 0x110 3
  cosl := bitField 0x112 3

/-- The fields of RBG0 (R19 to R24): no scroll origin, a map of 4 × 4 planes, a one-bit bitmap size. -/
def defaultRbg0 : LayerFields where
  on := bitField 0x020 4
  tpdis := bitField 0x020 12
  chsz := bitField 0x02A 8
  bmen := some (bitField 0x02A 9)
  bmsz := some (bitField 0x02A 10)
  chcn := { off := 0x02A, lsb := 12, width := 3 }
  pnb := bitField 0x038 15
  cnsm := bitField 0x038 14
  supp := { off := 0x038, lsb := 0, width := 10 }
  bmp := some { off := 0x02E, lsb := 0, width := 3 }
  plsz := { off := 0x03A, lsb := 8, width := 2 }
  mpof := { off := 0x03E, lsb := 0, width := 3 }
  mp := planeSelectorFields 0x050 16
  scx := none
  scy := none
  caos := { off := 0x0E6, lsb := 0, width := 3 }
  pri := { off := 0x0FC, lsb := 0, width := 3 }
  ccen := bitField 0x0EC 4
  ccrt := { off := 0x10C, lsb := 0, width := 5 }
  coen := bitField 0x110 4
  cosl := bitField 0x112 4

/-- A 9-bit colour-offset value in bits 8:0 (R24, R61). -/
def colorOffsetField (off : Nat) : Field := { off := off, lsb := 0, width := 9 }

/-- The default P_REGMAP (R13 to R24). -/
def defaultRegMap : RegMap where
  disp := bitField 0x000 15
  lsmd := { off := 0x000, lsb := 6, width := 2 }
  vreso := { off := 0x000, lsb := 4, width := 2 }
  hreso := { off := 0x000, lsb := 0, width := 3 }
  vblank := bitField 0x004 3
  hblank := bitField 0x004 2
  odd := bitField 0x004 1
  charext := bitField 0x006 15
  crmd := { off := 0x00E, lsb := 12, width := 2 }
  rpta := 0x0BC
  coar := colorOffsetField 0x114
  coag := colorOffsetField 0x116
  coab := colorOffsetField 0x118
  cobr := colorOffsetField 0x11A
  cobg := colorOffsetField 0x11C
  cobb := colorOffsetField 0x11E
  nbg0 := defaultNbg0
  nbg1 := defaultNbg1
  nbg2 := defaultNbg2
  nbg3 := defaultNbg3
  rbg0 := defaultRbg0

/-- A four-byte entry of the rotation table with its sign at bit `top` and bits 5:0 unused (R172). -/
def rotEntry16 (off top : Nat) : RotEntry := { off := off, size := .four, top := top, low := 6, frac := 16 }

/-- A two-byte integer entry of the rotation table with its sign at bit 13 (R172). -/
def rotEntryInt (off : Nat) : RotEntry := { off := off, size := .two, top := 13, low := 0, frac := 0 }

/-- A scale factor of the rotation table: four bytes, sign at bit 23, every low bit used (R172). -/
def rotEntryScale (off : Nat) : RotEntry := { off := off, size := .four, top := 23, low := 0, frac := 16 }

/-- The default P_ROT_LAYOUT (R172). -/
def defaultRotLayout : RotLayout where
  xst := rotEntry16 0x00 28
  yst := rotEntry16 0x04 28
  zst := rotEntry16 0x08 28
  deltaXst := rotEntry16 0x0C 18
  deltaYst := rotEntry16 0x10 18
  deltaX := rotEntry16 0x14 18
  deltaY := rotEntry16 0x18 18
  matA := rotEntry16 0x1C 19
  matB := rotEntry16 0x20 19
  matC := rotEntry16 0x24 19
  matD := rotEntry16 0x28 19
  matE := rotEntry16 0x2C 19
  matF := rotEntry16 0x30 19
  px := rotEntryInt 0x34
  py := rotEntryInt 0x36
  pz := rotEntryInt 0x38
  cx := rotEntryInt 0x3C
  cy := rotEntryInt 0x3E
  cz := rotEntryInt 0x40
  mx := rotEntry16 0x44 29
  my := rotEntry16 0x48 29
  kx := rotEntryScale 0x4C
  ky := rotEntryScale 0x50

/-- The default configuration (00_scope.md section 4). -/
def Config.default : Config where
  vramBytes := 0x80000
  regmap := defaultRegMap
  hres := [320, 352, 640, 704]
  vres := [224, 240, 256, 256]
  interlace := [false, false, false, true]
  cramModes := [.legacy, .wide, .extended, .extended]
  cramBankBytes := 0x200
  clear := { r := 0, g := 0, b := 0, a := 0 }
  mapWHScroll := 2
  mapWHRot := 4
  planeShapes := [(1, 1), (2, 1), (1, 1), (2, 2)]
  rotLayout := defaultRotLayout
  innerRankSprite := 5

/-- The number of bytes of colour memory, P_CRAM_BYTES (R27, R90). -/
def cramBytes : Nat := 0x1000

/-- Pixels per cell side, P_CELL_PX (R126). -/
def cellPx : Nat := 8

end Sys2Proof
end

