-- ==== Sys2Proof/Machine/State.lean ====
section
/-! DEFINITION. The state of the block (R10), its ports as data, and the reasons a step can stop. Every type here is plain
data. -/

namespace Sys2Proof.Machine

/-- The fault causes of R222. A fault is terminal and precise: nothing of the state is changed (R221). Every one of them is
safe: the spec itself stops there. -/
inductive Fault where
  /-- Code 1. Raised by REGWR and REGRD (every form) when the offset is odd or above 0x1FE. Safe: R222 names the stop. -/
  | badRegOffset (off : Nat)
  /-- Code 2. Raised by the internal operations that take a layer index when it is outside 0 to 5; no port reaches it (R185).
  Safe: R222 names the stop. -/
  | badLayerIndex (index : Nat)
  /-- Code 3. Raised by the host transactions on video and colour memory when the address is misaligned or the access runs
  past the end of the space. Safe: R222 names the stop. -/
  | badMemAccess (space : Space) (addr n : Nat)
  /-- Code 4. Raised by the step when the two words at the head of the inbox are no event of R60. Safe: R222 names the stop. -/
  | badEvent (w0 : Word32)
deriving DecidableEq, Repr

/-- The reasons for which the spec gives the hardware's behaviour no meaning (R224). -/
inductive Refusal where
  /-- An operation without a meaning in this model: raised only by an arm of `exec`, and no arm does. Safe. -/
  | notModelled (mnemonic : String)
  /-- A CHCN field of 5 or more on a layer whose configuration is derived. Raised by LAYER.INIT, LAYER.DRAW, DRAWFRAME and
  VBOUT. Safe: the spec refuses there (R109, R224); on a layer that is not to be drawn, log entries 25 and 26. -/
  | reservedDepth
  /-- auxMode ≥ 2 with one-word pattern names on a tile-mode layer. Raised by TILE.PIXEL, LAYER.PIXEL, ROT.PIXEL, LAYER.DRAW,
  DRAWFRAME and VBOUT. Safe: the spec refuses there (R138, R224). Unreachable under the default P_REGMAP. -/
  | reservedAuxMode
  /-- A transform mode other than table A (R179). No register field of the spec selects one, so nothing raises it. Safe. -/
  | unimplementedRotationMode
deriving DecidableEq, Repr

/-- A memory as a list of (address, byte) pairs in the canonical form `Memory.wf` of Machine/Ops.lean. -/
abbrev Memory := List Host.Cell

/-- The register bank (R11): 256 registers of 16 bits; the register at even offset `off` is entry `off / 2`. -/
abbrev Bank := Vector Word16 256

/-- The pixels of the output surface: rows of pixels, top row first, or the `k`-th collection of pixels that the spec calls
unspecified (R31, R83), each of which is the free value `Config.freePixel k x y`. -/
inductive Pixels where
  | unspecified (k : Nat)
  | drawn (rows : List (List Pixel))
deriving DecidableEq, Repr

/-- The output surface (R28). -/
structure Surface where
  w : Nat
  h : Nat
  px : Pixels
deriving DecidableEq, Repr

/-- The SPRITE port's answers (R187): `spriteEnable`, `spritePriority` (0 to 7) and `spritePixel`. The list gives the
positions (x, y) at which the port answers a pixel; at every other position it answers none. -/
structure SpritePort where
  enable : Bool
  priority : BitVec 3
  pixels : List ((Nat × Nat) × Pixel)
deriving DecidableEq, Repr

/-- One input event: its two words (R60) and the answers of the SPRITE port sampled with it (R187, R209). The slave-active
input is bit 24 of a VBIN's header (R208). -/
structure Input where
  w0 : Word32
  w1 : Word32
  sprite : SpritePort
deriving DecidableEq, Repr

/-- What an operation answers (00_scope.md section 6, `answer`): one constructor per kind of value. -/
inductive Answer where
  | byte (v : Byte)
  | word (v : Word16)
  | long (v : Word32)
  | pn1A0 (f : FmtPn1A0)
  | pn1A1 (f : FmtPn1A1)
  | pn2 (f : FmtPn2)
  | supp (f : FmtSupp)
  | pixD0 (f : FmtPixD0)
  | pixD1 (f : FmtPixD1)
  | pixD2 (f : FmtPixD2)
  | pixD3 (f : FmtPixD3)
  | pixD4 (f : FmtPixD4)
  | color1 (f : FmtColor1)
  | colofs (value : Int)
  | mode (m : CramMode)
  | pixel (p : Pixel)
  | rgb (c : Rgb)
  | layerCfg (g : LayerCfg)
  | coord (x y : Int)
  | address (a : Nat)
  | patternName (addr px0 py0 : Nat)
  | pattern (info : PatInfo)
  | fetched (p : Option Pixel)
  | rotParams (r : RotParams)
  | priority (v : Nat)
  | rank (v : Nat)
  | order (layers : List Layer)
deriving DecidableEq, Repr

/-- What an operation emits (00_scope.md section 5): notifications to the interrupt controller and to the slave unit, and the
presented frame as a value (R199, R214). -/
inductive Output where
  | notify (code : IrqCode)
  | notifySlave (code : IrqCode)
  | present (w h : Nat) (px : Pixels)
deriving DecidableEq, Repr

/-- The state. The first four fields are the whole persistent state of the block (R10). The others are the model's own: the
input events not yet taken, the SPRITE port as it answers now, the logs of what was answered and emitted, the counter of
unspecified surfaces, and the configuration, which is an argument of the spec's step (log entries 1, 2, 3, 5). -/
structure State where
  reg : Bank
  vram : Memory
  cram : Memory
  surface : Surface
  inbox : List Input
  sprite : SpritePort
  answers : List Answer
  outputs : List Output
  unspecSeq : Nat
  config : Config
deriving DecidableEq, Repr

/-- What every internal operation reads (R47): one snapshot of the registers and the memories, with the configuration. -/
structure Snap where
  config : Config
  reg : Bank
  vram : Memory
  cram : Memory
deriving DecidableEq, Repr

/-- The snapshot of a state. -/
def State.snap (s : State) : Snap := { config := s.config, reg := s.reg, vram := s.vram, cram := s.cram }

/-- A SPRITE port with nothing on it. -/
def SpritePort.off : SpritePort := { enable := false, priority := 0, pixels := [] }

/-- The launch state (R30, R31, R240): every register 0x0000, the surface of the reset resolution with unspecified pixels, no
output emitted. The memories list nothing: every byte of them is the free value `Config.launchByte` (log entry 4). -/
def State.reset : State where
  reg := Vector.replicate 256 0#16
  vram := []
  cram := []
  surface := { w := 320, h := 224, px := .unspecified 0 }
  inbox := []
  sprite := SpritePort.off
  answers := []
  outputs := []
  unspecSeq := 1
  config := Config.default

end Sys2Proof.Machine
end

