-- ==== Sys2Proof/Machine/Ops.lean ====
section
/-! DEFINITION. The named operations over memory, registers, the surface and the ports (00_scope.md section 6,
20_memory.md). Byte order, address reduction, faults, answers and outputs are decided here, once. -/

namespace Sys2Proof.Machine

/-- One operation's outcome: a next state, a fault or a refusal. -/
abbrev Result := Host.Outcome State Fault Refusal

/-! ## Bytes in canonical form -/

/-- The byte that the list holds at an address; none where it holds none. -/
def memFind : Memory → Nat → Option Byte
  | [], _ => none
  | (k, v) :: m, a => if k = a then some v else memFind m a

/-- What an address that the list does not hold reads as: the byte of the launch state, a free value (R31, log entry 4). -/
def unlisted (sp : Space) (a : Nat) : Byte := Config.launchByte sp a

/-- The byte at an address of a memory. -/
def memGet (sp : Space) (m : Memory) (a : Nat) : Byte := (memFind m a).getD (unlisted sp a)

/-- One byte stored: the list with the byte at `a` in its place, addresses rising. -/
def memSet : Memory → Nat → Byte → Memory
  | [], a, v => [(a, v)]
  | (k, w) :: m, a, v =>
    if a < k then (a, v) :: (k, w) :: m else if a = k then (a, v) :: m else (k, w) :: memSet m a v

/-- The canonical form: addresses strictly rising. No entry equals what an unlisted address holds, which is no known byte, so two
memories with the same entries are the same list (`memory_ext` in Laws/Memory.lean; log entry 4). -/
abbrev Memory.wf (m : Memory) : Prop :=
  m.Pairwise (fun c d => c.1 < d.1)

/-- Every listed address lies inside a space of `size` bytes. -/
abbrev Memory.within (m : Memory) (size : Nat) : Prop :=
  ∀ c ∈ m, c.1 < size

/-! ## `MemRead` and `MemWrite`: big-endian, addresses reduced modulo the size of the space (R41, R42, R43) -/

/-- One byte of a space of `size` bytes. -/
def readByte (sp : Space) (m : Memory) (size a : Nat) : Byte := memGet sp m (a % size)

/-- `MemRead(space, a, 2)` (R41): the byte at the lower address is the more significant. -/
def read16 (sp : Space) (m : Memory) (size a : Nat) : Word16 := readByte sp m size a ++ readByte sp m size (a + 1)

/-- `MemRead(space, a, 4)` (R41). -/
def read32 (sp : Space) (m : Memory) (size a : Nat) : Word32 :=
  readByte sp m size a ++ readByte sp m size (a + 1) ++ readByte sp m size (a + 2) ++ readByte sp m size (a + 3)

/-- `MemWrite`: the bytes go to consecutive addresses, the first at `a`. -/
def writeBytes (m : Memory) (size : Nat) : Nat → List Byte → Memory
  | _, [] => m
  | a, b :: bs => writeBytes (memSet m (a % size) b) size (a + 1) bs

/-- The bytes of a 16-bit value, most significant first (R41). -/
def bytesOf16 (v : Word16) : List Byte := [v.extractLsb' 8 8, v.extractLsb' 0 8]

/-- The bytes of a 32-bit value, most significant first (R41). -/
def bytesOf32 (v : Word32) : List Byte :=
  [v.extractLsb' 24 8, v.extractLsb' 16 8, v.extractLsb' 8 8, v.extractLsb' 0 8]

/-- `vram16(a)` (00_scope.md section 6). -/
def vram16 (v : Snap) (a : Nat) : Word16 := read16 .vram v.vram v.config.vramBytes a

/-- `vram32(a)` (00_scope.md section 6). -/
def vram32 (v : Snap) (a : Nat) : Word32 := read32 .vram v.vram v.config.vramBytes a

/-- `MemRead(CRAM, a, 2)`. -/
def cram16 (v : Snap) (a : Nat) : Word16 := read16 .cram v.cram cramBytes a

/-! ## The register bank (R11, R41) -/

/-- `reg[off]`. -/
def regGet (reg : Bank) (off : Nat) : Word16 := (reg[off / 2]?).getD 0#16

/-- `reg[off] <- v`. -/
def regPut (reg : Bank) (off : Nat) (v : Word16) : Bank := reg.setIfInBounds (off / 2) v

/-- `regByte(off)` (R41): the high byte at an even offset, the low byte at an odd one. -/
def regByte (reg : Bank) (off : Nat) : Byte :=
  if off % 2 = 0 then (regGet reg off).extractLsb' 8 8 else (regGet reg (off - 1)).extractLsb' 0 8

/-- `regLong(off) = reg[off] ‖ reg[off+2]` (R41). -/
def regLong (reg : Bank) (off : Nat) : Word32 := regGet reg off ++ regGet reg (off + 2)

/-! ## The output surface (R28) -/

/-- The surface of `w` by `h` pixels whose pixel at (x, y) is `f x y`. -/
def buildSurface (w h : Nat) (f : Nat → Nat → Pixel) : Surface :=
  { w := w, h := h, px := .drawn ((List.range h).map (fun y => (List.range w).map (fun x => f x y))) }

/-- `surface.px(x, y)`. A pixel that the spec calls unspecified is a free value; so is a position outside the surface, which
no operation reads. -/
def surfaceAt (sf : Surface) (x y : Nat) : Pixel :=
  match sf.px with
  | .unspecified k => Config.freePixel k x y
  | .drawn rows => ((rows[y]?).bind (fun row => row[x]?)).getD (Config.freePixel 0 x y)

/-- The rows of a drawn surface have its width and its height. -/
abbrev Surface.wf (sf : Surface) : Prop :=
  match sf.px with
  | .unspecified _ => True
  | .drawn rows => rows.length = sf.h ∧ ∀ row ∈ rows, row.length = sf.w

/-- A pixel as one packed word `a ‖ b ‖ g ‖ r` (R199). -/
def packPixel (p : Pixel) : Word32 := p.a ++ p.b ++ p.g ++ p.r

/-! ## State updates -/

/-- The state with another register bank. -/
def State.setBank (s : State) (reg : Bank) : State := { s with reg := reg }

/-- The state with another video memory. -/
def State.setVram (s : State) (m : Memory) : State := { s with vram := m }

/-- The state with another colour memory. -/
def State.setCram (s : State) (m : Memory) : State := { s with cram := m }

/-- The state with another output surface. -/
def State.setSurface (s : State) (sf : Surface) : State := { s with surface := sf }

/-- `answer v`: the value goes to the log of answers. -/
def State.reply (s : State) (v : Answer) : State := { s with answers := s.answers ++ [v] }

/-- `emit o`: the output goes to the log of outputs, in order. -/
def State.emit (s : State) (o : Output) : State := { s with outputs := s.outputs ++ [o] }

/-- The surface takes another size and its pixels become unspecified (R83): the next free surface. -/
def State.resize (s : State) (w h : Nat) : State :=
  { s with surface := { w := w, h := h, px := .unspecified s.unspecSeq }, unspecSeq := s.unspecSeq + 1 }

/-- The next input event is taken from the inbox, and the SPRITE port answers what was sampled with it (R187). -/
def State.accept (s : State) (inp : Input) (rest : List Input) : State := { s with inbox := rest, sprite := inp.sprite }

/-! ## Abnormal outcomes (R220 to R224)

The block takes no traps and has no handlers (R227): a fault saves nothing and changes nothing, its cause is in the outcome,
and there is no return from one. -/

/-- `raise ContractViolation(cause)` (R221). -/
def raise (cause : Fault) : Result := .fault cause

/-- `refuse reason` (R224). -/
def refuse (reason : Refusal) : Result := .refused reason

/-- The contract of a host transaction of `n` bytes on a space of `size` bytes (R44, R222). -/
def accessOk (size addr n : Nat) : Bool := addr % n == 0 && decide (addr + n ≤ size)

/-- The contract of a register offset (R44, R222): even and at most 0x1FE. -/
def offsetOk (off : Nat) : Bool := off % 2 == 0 && decide (off ≤ 0x1FE)

/-- The layer that an index 0 to 5 names (R106, R185). -/
def layerOfIndex : Nat → Option Layer
  | 0 => some (.bg .nbg0)
  | 1 => some (.bg .nbg1)
  | 2 => some (.bg .nbg2)
  | 3 => some (.bg .nbg3)
  | 4 => some (.bg .rbg0)
  | 5 => some .sprite
  | _ => none

/-- An internal operation on a layer index: the index is checked first (R222, cause 2). -/
def withLayer (index : Nat) (op : Layer → Result) : Result :=
  match layerOfIndex index with
  | some l => op l
  | none => raise (.badLayerIndex index)

end Sys2Proof.Machine
end

