-- ==== Sys2Proof/Machine/Operands.lean ====
section
/-! DEFINITION. Operand forms: register fields and the values that the rules decode from them (10_state.md section 5,
40_register_bank.md R84, 41_color_memory.md R91, 42_layer_config.md R106 to R119), and the fixed-point entries of the rotation
table (45_rotation.md R172). -/

namespace Sys2Proof.Machine

/-- `fld(F) = reg[F.off][F.lsb+F.width−1 : F.lsb]` (R14): unsigned. -/
def fld (reg : Bank) (f : Field) : Nat := ((regGet reg f.off).toNat >>> f.lsb) % 2 ^ f.width

/-- A field that the layer may lack reads 0 where it does (R20: "none"). -/
def fldOpt (reg : Bank) : Option Field → Nat
  | some f => fld reg f
  | none => 0

/-- `sext_N(v)`: the low `n` bits of `v` read as a two's-complement integer. -/
def sextN (n v : Nat) : Int := (BitVec.ofNat n v).toInt

/-- The register fields of one background layer. -/
def layerFields (c : Config) : Bg → LayerFields
  | .nbg0 => c.regmap.nbg0
  | .nbg1 => c.regmap.nbg1
  | .nbg2 => c.regmap.nbg2
  | .nbg3 => c.regmap.nbg3
  | .rbg0 => c.regmap.rbg0

/-! ## Functions of the register bank (R29) -/

/-- `resolution(reg)` (R84): `HRESO[2]` is ignored, and only the height doubles. -/
def resolution (c : Config) (reg : Bank) : Nat × Nat :=
  let w := c.hres.getD (fld reg c.regmap.hreso % 4) 0
  let h0 := c.vres.getD (fld reg c.regmap.vreso) 0
  (w, if c.interlace.getD (fld reg c.regmap.lsmd) false then 2 * h0 else h0)

/-- `cramMode(reg) = P_CRAM_MODE[fld(CRMD)]` (R91). -/
def cramModeOf (c : Config) (reg : Bank) : CramMode := c.cramModes.getD (fld reg c.regmap.crmd) .extended

/-! ## Layer capabilities (R106) -/

/-- The inner-priority rank of a background layer (R106, R189). -/
def bgRank : Bg → Nat
  | .nbg0 => 0
  | .nbg1 => 1
  | .nbg2 => 2
  | .nbg3 => 3
  | .rbg0 => 4

/-- Whether the layer is the rotation layer (R106). -/
def bgRotation : Bg → Bool
  | .rbg0 => true
  | .nbg0 | .nbg1 | .nbg2 | .nbg3 => false

/-- Whether the layer has a bitmap mode (R106, R108). -/
def bgBitmapCapable : Bg → Bool
  | .nbg0 | .nbg1 | .rbg0 => true
  | .nbg2 | .nbg3 => false

/-- Planes per map side (R106, R112). -/
def bgMapWH (c : Config) : Bg → Nat
  | .rbg0 => c.mapWHRot
  | .nbg0 | .nbg1 | .nbg2 | .nbg3 => c.mapWHScroll

/-! ## Field decodes of LAYER.INIT (R107 to R119) -/

/-- `depthOf` (R109): values above 4 are reserved (R76). -/
def depthOf : Nat → Except Refusal Depth
  | 0 => .ok .d0
  | 1 => .ok .d1
  | 2 => .ok .d2
  | 3 => .ok .d3
  | 4 => .ok .d4
  | _ => .error .reservedDepth

/-- `planeShape` (R110): planeW and planeH in pages. -/
def planeShapeOf (c : Config) (v : Nat) : Nat × Nat := c.planeShapes.getD v (1, 1)

/-- The signed value of one colour-offset field (R61): `sext_9`. -/
def offsetValue (reg : Bank) (f : Field) : Int := sextN 9 (fld reg f)

/-- `colorOffsetOf(L)` (R115). -/
def colorOffsetOf (c : Config) (reg : Bank) (l : Bg) : ColorOffset :=
  let m := c.regmap
  if fld reg (layerFields c l).coen = 0 then { r := 0, g := 0, b := 0 }
  else if fld reg (layerFields c l).cosl = 0 then
    { r := offsetValue reg m.coar, g := offsetValue reg m.coag, b := offsetValue reg m.coab }
  else { r := offsetValue reg m.cobr, g := offsetValue reg m.cobg, b := offsetValue reg m.cobb }

/-- `alphaOf(L)` (R116): `((~ratio) & 0x1F) << 3` where the alpha factor is enabled, else 0xFF. -/
def alphaOf (c : Config) (reg : Bank) (l : Bg) : Byte :=
  if fld reg (layerFields c l).ccen = 0 then 0xFF#8
  else (~~~(BitVec.ofNat 5 (fld reg (layerFields c l).ccrt))).setWidth 8 <<< 3

/-- The bitmap size selected by BMSZ (R118). -/
def bitmapSizeOf : Nat → Nat × Nat
  | 0 => (512, 256)
  | 1 => (512, 512)
  | 2 => (1024, 256)
  | _ => (1024, 512)

/-! ## Fixed-point entries of the rotation table (R172) -/

/-- `fix(raw, top, low, frac)`: the bits above `top` and below `low` are ignored, bit `top` is the sign, and the value is
divided by `2^frac`. -/
def fixPoint (raw : Nat) (e : RotEntry) : Rat :=
  mkRat (sextN (e.top + 1) ((raw >>> e.low) <<< e.low)) (2 ^ e.frac)

/-- The raw value of one entry of the table at `t`: 2 or 4 bytes, big-endian. -/
def rotRaw (v : Snap) (t : Nat) (e : RotEntry) : Nat :=
  match e.size with
  | .two => (vram16 v (t + e.off)).toNat
  | .four => (vram32 v (t + e.off)).toNat

/-- One value of the table at `t`. -/
def rotValue (v : Snap) (t : Nat) (e : RotEntry) : Rat := fixPoint (rotRaw v t e) e

/-! ## Rounding and clamping (00_scope.md section 6, R6) -/

/-- `trunc(q)`: rounds a rational toward zero. -/
def truncRat (q : Rat) : Int := q.num.tdiv q.den

/-- `clamp(v, 0, 255)` as a channel. -/
def clampChannel (x : Int) : Byte :=
  if x < 0 then 0x00#8 else if 255 < x then 0xFF#8 else BitVec.ofNat 8 x.toNat

end Sys2Proof.Machine
end

