-- ==== Sys2Proof/Machine/Flags.lean ====
section
/-! DEFINITION. The three status flags HBLANK, VBLANK and ODD (R13): bits of the status register, which the edge operations
set and clear one at a time, preserving every other bit (47_timing.md, SET and CLR). -/

namespace Sys2Proof.Machine

/-- The mask `1 << F.lsb` of a one-bit field. -/
def flagMask (f : Field) : Word16 := 1#16 <<< f.lsb

/-- `SET(F)`: `reg[F.off] <- reg[F.off] | (1 << F.lsb)`. -/
def setFlag (reg : Bank) (f : Field) : Bank := regPut reg f.off (regGet reg f.off ||| flagMask f)

/-- `CLR(F)`: `reg[F.off] <- reg[F.off] & ~(1 << F.lsb)`. -/
def clrFlag (reg : Bank) (f : Field) : Bank := regPut reg f.off (regGet reg f.off &&& ~~~(flagMask f))

end Sys2Proof.Machine
end

