-- ==== Sys2Proof/Machine/Formats.lean ====
section
/-! DEFINITION. The data formats of 30_encoding.md as operations: each splits its datum into the named fields of its pattern
string and answers them. They read no state and change none. -/

namespace Sys2Proof.Machine

/-- FMT.PN1.A0 (R62). -/
def execFmtPn1A0 (w : Word16) (s : State) : Result := .next (s.reply (.pn1A0 (pn1A0OfWord w)))

/-- FMT.PN1.A1 (R63). -/
def execFmtPn1A1 (w : Word16) (s : State) : Result := .next (s.reply (.pn1A1 (pn1A1OfWord w)))

/-- FMT.PN2 (R64). -/
def execFmtPn2 (w : Word32) (s : State) : Result := .next (s.reply (.pn2 (pn2OfWord w)))

/-- FMT.SUPP (R65). -/
def execFmtSupp (d : BitVec 10) (s : State) : Result := .next (s.reply (.supp (suppOfBits d)))

/-- FMT.PIX.D0 (R69). -/
def execFmtPixD0 (w : Word16) (s : State) : Result := .next (s.reply (.pixD0 (pixD0OfWord w)))

/-- FMT.PIX.D1 (R69). -/
def execFmtPixD1 (w : Word16) (s : State) : Result := .next (s.reply (.pixD1 (pixD1OfWord w)))

/-- FMT.PIX.D2 (R69). -/
def execFmtPixD2 (w : Word16) (s : State) : Result := .next (s.reply (.pixD2 (pixD2OfWord w)))

/-- FMT.PIX.D3 (R69). -/
def execFmtPixD3 (w : Word16) (s : State) : Result := .next (s.reply (.pixD3 (pixD3OfWord w)))

/-- FMT.PIX.D4 (R69). -/
def execFmtPixD4 (w : Word32) (s : State) : Result := .next (s.reply (.pixD4 (pixD4OfWord w)))

/-- FMT.COLOR1 (R71). -/
def execFmtColor1 (w : Word16) (s : State) : Result := .next (s.reply (.color1 (color1OfWord w)))

/-- FMT.COLOFS (R61): `value = sext_9(reg[off][8:0])`. -/
def execFmtColofs (w : Word16) (s : State) : Result := .next (s.reply (.colofs (colofsOfWord w).value.toInt))

end Sys2Proof.Machine
end

