-- ==== Sys2Proof/Machine/RegisterBank.lean ====
section
/-! DEFINITION. The register bank and the host transactions on video memory (40_register_bank.md). -/

namespace Sys2Proof.Machine

/-- After a write of the resolution register (R83): if the decoded resolution is not the surface's size, the surface takes that
size and its pixels are unspecified. -/
def afterResolutionWrite (s : State) : State :=
  let r := resolution s.config s.reg
  if r.1 = s.surface.w ∧ r.2 = s.surface.h then s else s.resize r.1 r.2

/-- The side effect of a trigger offset (R82): 0x000 may resize the surface; at 0x00E and at the priority offsets the effect is
the store alone, because the mode and the draw order are functions of the registers (R29, R85, R86). -/
def afterRegWrite (off : Nat) (s : State) : State := if off = 0x000 then afterResolutionWrite s else s

/-- `REGWR off, val` at any offset (R80, R82): the contract, the store, the trigger. -/
def hostRegWrite (off : Nat) (val : Word16) (s : State) : Result :=
  if offsetOk off then .next (afterRegWrite off (s.setBank (regPut s.reg off val))) else raise (.badRegOffset off)

/-- `REGRD off` (R81). -/
def hostRegRead (off : Nat) (s : State) : Result :=
  if offsetOk off then .next (s.reply (.word (regGet s.reg off))) else raise (.badRegOffset off)

/-- A host write of the given bytes to video memory (R87). -/
def hostVramWrite (addr : Nat) (bytes : List Byte) (s : State) : Result :=
  if accessOk s.config.vramBytes addr bytes.length then
    .next (s.setVram (writeBytes s.vram s.config.vramBytes addr bytes))
  else raise (.badMemAccess .vram addr bytes.length)

/-- A host read of `n` bytes of video memory (R88): `value` reads them. -/
def hostVramRead (addr n : Nat) (value : Snap → Nat → Answer) (s : State) : Result :=
  if accessOk s.config.vramBytes addr n then .next (s.reply (value s.snap addr)) else raise (.badMemAccess .vram addr n)

/-- REGWR (R80). -/
def execRegwr (off : BitVec 24) (val : Word16) (s : State) : Result := hostRegWrite off.toNat val s

/-- REGWR.RES (R83): the form at offset 0x000. -/
def execRegwrRes (val : Word16) (s : State) : Result := hostRegWrite 0x000 val s

/-- REGWR.RAMMODE (R85): the form at offset 0x00E. -/
def execRegwrRammode (val : Word16) (s : State) : Result := hostRegWrite 0x00E val s

/-- REGWR.PRI at offset 0x0F8 (R86). -/
def execRegwrPri0F8 (val : Word16) (s : State) : Result := hostRegWrite 0x0F8 val s

/-- REGWR.PRI at offset 0x0FA (R86). -/
def execRegwrPri0FA (val : Word16) (s : State) : Result := hostRegWrite 0x0FA val s

/-- REGWR.PRI at offset 0x0FC (R86). -/
def execRegwrPri0FC (val : Word16) (s : State) : Result := hostRegWrite 0x0FC val s

/-- REGRD (R81). -/
def execRegrd (off : BitVec 24) (s : State) : Result := hostRegRead off.toNat s

/-- VRAMWR.B (R87). -/
def execVramwrB (addr : BitVec 24) (val : Byte) (s : State) : Result := hostVramWrite addr.toNat [val] s

/-- VRAMWR.W (R87). -/
def execVramwrW (addr : BitVec 24) (val : Word16) (s : State) : Result := hostVramWrite addr.toNat (bytesOf16 val) s

/-- VRAMWR.L (R87). -/
def execVramwrL (addr : BitVec 24) (val : Word32) (s : State) : Result := hostVramWrite addr.toNat (bytesOf32 val) s

/-- VRAMRD.B (R88). -/
def execVramrdB (addr : BitVec 24) (s : State) : Result :=
  hostVramRead addr.toNat 1 (fun v a => .byte (readByte .vram v.vram v.config.vramBytes a)) s

/-- VRAMRD.W (R88). -/
def execVramrdW (addr : BitVec 24) (s : State) : Result := hostVramRead addr.toNat 2 (fun v a => .word (vram16 v a)) s

/-- VRAMRD.L (R88). -/
def execVramrdL (addr : BitVec 24) (s : State) : Result := hostVramRead addr.toNat 4 (fun v a => .long (vram32 v a)) s

end Sys2Proof.Machine
end

