-- ==== Sys2Proof/Machine/ColorMemory.lean ====
section
/-! DEFINITION. Colour memory and the palette multiplexer (41_color_memory.md). -/

namespace Sys2Proof.Machine

/-- The byte address of the other half of colour memory: `addr ^ 0x800` (R93). -/
def shadowAddr (addr : Nat) : Nat := addr ^^^ 0x800

/-- A host write of the given bytes to colour memory (R93): in legacy mode they also go to the shadow bank. -/
def hostCramWrite (addr : Nat) (bytes : List Byte) (s : State) : Result :=
  if accessOk cramBytes addr bytes.length then
    let m := writeBytes s.cram cramBytes addr bytes
    .next (s.setCram (match cramModeOf s.config s.reg with
      | .legacy => writeBytes m cramBytes (shadowAddr addr) bytes
      | .wide | .extended => m))
  else raise (.badMemAccess .cram addr bytes.length)

/-- A host read of `n` bytes of colour memory (R94): the address is not transformed by the mode. -/
def hostCramRead (addr n : Nat) (value : Memory → Nat → Answer) (s : State) : Result :=
  if accessOk cramBytes addr n then .next (s.reply (value s.cram addr)) else raise (.badMemAccess .cram addr n)

/-- `EXPAND1` (R92): each 5-bit value in the top five bits of its channel. -/
def expandOne (w : Word16) : Rgb :=
  let f := color1OfWord w
  { r := f.r.setWidth 8 <<< 3, g := f.g.setWidth 8 <<< 3, b := f.b.setWidth 8 <<< 3 }

/-- `EXPAND2` (R98): the OPEN function P_EXPAND2 of the two words. -/
def expandTwo (w1 w2 : Word16) : Rgb := Config.expand2 w1 w2

/-- A colour with its alpha channel (R99). -/
def rgba (c : Rgb) (alpha : Byte) : Pixel := { r := c.r, g := c.g, b := c.b, a := alpha }

/-- `RESOLVE` in legacy mode (R95): 1024 slots of 2 bytes. -/
def resolveInLegacy (v : Snap) (index : Nat) (alpha : Byte) (bankSel : Nat) : Pixel :=
  rgba (expandOne (cram16 v ((index * 2 + bankSel * v.config.cramBankBytes) % 0x800))) alpha

/-- `RESOLVE` in wide mode (R96): 2048 slots of 2 bytes. -/
def resolveInWide (v : Snap) (index : Nat) (alpha : Byte) (bankSel : Nat) : Pixel :=
  rgba (expandOne (cram16 v ((index * 2 + bankSel * v.config.cramBankBytes) % 0x1000))) alpha

/-- `RESOLVE` in extended mode (R97): 1024 slots of 4 bytes. -/
def resolveInExtended (v : Snap) (index : Nat) (alpha : Byte) (bankSel : Nat) : Pixel :=
  let a := (index * 4 + bankSel * v.config.cramBankBytes) % 0x1000
  rgba (expandTwo (cram16 v a) (cram16 v ((a + 2) % 0x1000))) alpha

/-- `RESOLVE` as the layers call it: the form that the mode selects, evaluated afresh at every call (R91). -/
def resolve (v : Snap) (index : Nat) (alpha : Byte) (bankSel : Nat) : Pixel :=
  match cramModeOf v.config v.reg with
  | .legacy => resolveInLegacy v index alpha bankSel
  | .wide => resolveInWide v index alpha bankSel
  | .extended => resolveInExtended v index alpha bankSel

/-- CRAMWR.B (R93). -/
def execCramwrB (addr : BitVec 24) (val : Byte) (s : State) : Result := hostCramWrite addr.toNat [val] s

/-- CRAMWR.W (R93). -/
def execCramwrW (addr : BitVec 24) (val : Word16) (s : State) : Result := hostCramWrite addr.toNat (bytesOf16 val) s

/-- CRAMWR.L (R93). -/
def execCramwrL (addr : BitVec 24) (val : Word32) (s : State) : Result := hostCramWrite addr.toNat (bytesOf32 val) s

/-- CRAMRD.B (R94). -/
def execCramrdB (addr : BitVec 24) (s : State) : Result :=
  hostCramRead addr.toNat 1 (fun m a => .byte (readByte .cram m cramBytes a)) s

/-- CRAMRD.W (R94). -/
def execCramrdW (addr : BitVec 24) (s : State) : Result :=
  hostCramRead addr.toNat 2 (fun m a => .word (read16 .cram m cramBytes a)) s

/-- CRAMRD.L (R94). -/
def execCramrdL (addr : BitVec 24) (s : State) : Result :=
  hostCramRead addr.toNat 4 (fun m a => .long (read32 .cram m cramBytes a)) s

/-- CRAM.MODE (R91). -/
def execCramMode (s : State) : Result := .next (s.reply (.mode (cramModeOf s.config s.reg)))

/-- RESOLVE.LEGACY (R95). -/
def execResolveLegacy (index : Nat) (alpha : Byte) (bankSel : Nat) (s : State) : Result :=
  .next (s.reply (.pixel (resolveInLegacy s.snap index alpha bankSel)))

/-- RESOLVE.WIDE (R96). -/
def execResolveWide (index : Nat) (alpha : Byte) (bankSel : Nat) (s : State) : Result :=
  .next (s.reply (.pixel (resolveInWide s.snap index alpha bankSel)))

/-- RESOLVE.EXT (R97). -/
def execResolveExt (index : Nat) (alpha : Byte) (bankSel : Nat) (s : State) : Result :=
  .next (s.reply (.pixel (resolveInExtended s.snap index alpha bankSel)))

/-- EXPAND1 (R92). -/
def execExpand1 (w : Word16) (s : State) : Result := .next (s.reply (.rgb (expandOne w)))

/-- EXPAND2 (R98). -/
def execExpand2 (w1 w2 : Word16) (s : State) : Result := .next (s.reply (.rgb (expandTwo w1 w2)))

end Sys2Proof.Machine
end

