-- ==== Sys2Proof/Machine/Rotation.lean ====
section
/-! DEFINITION. The affine-rotation engine (45_rotation.md): the table address, the table's load and the coordinate generator.
One transform mode exists, table A (R179). -/

namespace Sys2Proof.Machine

/-- `ROT.ADDR` (R171): `((RPTA << 1) mod P_VRAM_BYTES) & ~0x83`. -/
def rotTableAddr (c : Config) (reg : Bank) : Nat :=
  let a := ((regLong reg c.regmap.rpta).toNat <<< 1) % c.vramBytes
  a - (a &&& 0x83)

/-- `ROT.LOAD` (R173): the 23 values of table A, from video memory as it stands. -/
def rotLoadTable (v : Snap) : RotParams :=
  let t := rotTableAddr v.config v.reg
  let l := v.config.rotLayout
  { xst := rotValue v t l.xst, yst := rotValue v t l.yst, zst := rotValue v t l.zst,
    deltaXst := rotValue v t l.deltaXst, deltaYst := rotValue v t l.deltaYst,
    deltaX := rotValue v t l.deltaX, deltaY := rotValue v t l.deltaY,
    matA := rotValue v t l.matA, matB := rotValue v t l.matB, matC := rotValue v t l.matC,
    matD := rotValue v t l.matD, matE := rotValue v t l.matE, matF := rotValue v t l.matF,
    px := rotValue v t l.px, py := rotValue v t l.py, pz := rotValue v t l.pz,
    cx := rotValue v t l.cx, cy := rotValue v t l.cy, cz := rotValue v t l.cz,
    mx := rotValue v t l.mx, my := rotValue v t l.my,
    kx := rotValue v t l.kx, ky := rotValue v t l.ky }

/-- The exact source coordinate along X (R175). -/
def rotX (r : RotParams) (hcnt vcnt : Int) : Rat :=
  let xsp := r.matA * ((r.xst + r.deltaXst * vcnt) - r.px) + r.matB * ((r.yst + r.deltaYst * vcnt) - r.py)
    + r.matC * (r.zst - r.pz)
  let xp := r.matA * (r.px - r.cx) + r.matB * (r.py - r.cy) + r.matC * (r.pz - r.cz)
  let dX := r.matA * r.deltaX + r.matB * r.deltaY
  r.kx * (xsp + dX * hcnt) + xp

/-- The exact source coordinate along Y (R175): D, E, F in the places of A, B, C, and ky in the place of kx. -/
def rotY (r : RotParams) (hcnt vcnt : Int) : Rat :=
  let ysp := r.matD * ((r.xst + r.deltaXst * vcnt) - r.px) + r.matE * ((r.yst + r.deltaYst * vcnt) - r.py)
    + r.matF * (r.zst - r.pz)
  let yp := r.matD * (r.px - r.cx) + r.matE * (r.py - r.cy) + r.matF * (r.pz - r.cz)
  let dY := r.matD * r.deltaX + r.matE * r.deltaY
  r.ky * (ysp + dY * hcnt) + yp

/-- `ROT.COORD` (R175, R176): exact arithmetic and one truncation toward zero. -/
def rotCoordOf (r : RotParams) (hcnt vcnt : Int) : Int × Int := (truncRat (rotX r hcnt vcnt), truncRat (rotY r hcnt vcnt))

/-- ROT.ADDR (R171). -/
def execRotAddr (s : State) : Result := .next (s.reply (.address (rotTableAddr s.config s.reg)))

/-- ROT.LOAD (R173). -/
def execRotLoad (s : State) : Result := .next (s.reply (.rotParams (rotLoadTable s.snap)))

/-- ROT.COORD (R175). -/
def execRotCoord (rot : RotParams) (hcnt vcnt : Int) (s : State) : Result :=
  .next (s.reply (.coord (rotCoordOf rot hcnt vcnt).1 (rotCoordOf rot hcnt vcnt).2))

end Sys2Proof.Machine
end

