-- ==== Sys2Proof/Machine/LayerConfig.lean ====
section
/-! DEFINITION. Layer entities and their configuration (42_layer_config.md): LAYER.INIT. -/

namespace Sys2Proof.Machine

/-- `ON[L]` (R107). -/
def bgEnabled (c : Config) (reg : Bank) (l : Bg) : Bool := fld reg (layerFields c l).on == 1

/-- `LAYER.INIT` with its depth already decoded (R105): every other field decode is total. -/
def layerRecord (v : Snap) (l : Bg) (depth : Depth) : LayerCfg :=
  let c := v.config
  let f := layerFields c l
  let get := fld v.reg
  let shape := planeShapeOf c (get f.plsz)
  let patternWH := 1 + get f.chsz
  let bm := bitmapSizeOf (fldOpt v.reg f.bmsz)
  { layer := l
    enabled := bgEnabled c v.reg l
    bitmap := bgBitmapCapable l && fldOpt v.reg f.bmen == 1
    depth := depth
    scrollX := fldOpt v.reg f.scx
    scrollY := fldOpt v.reg f.scy
    rot := if bgRotation l then some (rotLoadTable v) else none
    planeW := shape.1
    planeH := shape.2
    mapWH := bgMapWH c l
    patternDataSize := if get f.pnb = 1 then 1 else 2
    patternWH := patternWH
    pageWH := 64 / patternWH
    auxMode := get f.cnsm
    supp := BitVec.ofNat 10 (get f.supp)
    mapOffset := get f.mpof
    planeSel := f.mp.map get
    bmW := bm.1
    bmH := bm.2
    bmBase := (get f.mpof * 0x20000) % c.vramBytes
    bmPal := BitVec.ofNat 7 (fldOpt v.reg f.bmp <<< 4)
    transparencyEnable := get f.tpdis == 0
    colorOffset := colorOffsetOf c v.reg l
    alpha := alphaOf c v.reg l
    cramBankSel := get f.caos
    priority := get f.pri
    innerRank := bgRank l
    charExt := get c.regmap.charext == 1 }

/-- `LAYER.INIT L` (R105): refused where CHCN is reserved (R109). R105 also calls LAYER.INIT of a disabled layer defined, and R224
confines the refusal to a layer that is to be drawn; that LAYER.INIT by itself is refused on a reserved CHCN whatever the enable,
the priority and the display are is a DESIGN CHOICE, log entry 26. -/
def layerInitOf (v : Snap) (l : Bg) : Except Refusal LayerCfg :=
  match depthOf (fld v.reg (layerFields v.config l).chcn) with
  | .ok d => .ok (layerRecord v l d)
  | .error r => .error r

/-- LAYER.INIT (R105); a reserved CHCN as `layerInitOf` says (log entry 26). -/
def execLayerInit (l : Bg) (s : State) : Result :=
  match layerInitOf s.snap l with
  | .ok g => .next (s.reply (.layerCfg g))
  | .error r => refuse r

end Sys2Proof.Machine
end

