-- ==== Sys2Proof/Machine/PixelFetch.lean ====
section
/-! DEFINITION. Pixel fetch at the five depths, and transparency (44_pixel_fetch.md R150 to R160). -/

namespace Sys2Proof.Machine

/-- Bytes of one cell (R70). -/
def cellBytes : Depth → Nat
  | .d0 => 32
  | .d1 => 64
  | .d2 => 128
  | .d3 => 128
  | .d4 => 256

/-- `(wordAddr, sub)` of pixel number `n` of an array of pixels packed from `base` on, row-major (R69, R151, R163). -/
def packedPixel (d : Depth) (base n : Nat) : Nat × Nat :=
  match d with
  | .d0 => (base + (n / 4) * 2, n % 4)
  | .d1 => (base + (n / 2) * 2, n % 2)
  | .d2 => (base + n * 2, 0)
  | .d3 => (base + n * 2, 0)
  | .d4 => (base + n * 4, 0)

/-- `(wordAddr, sub)` of the pixel (px, py) of a pattern (R151): the cells are consecutive, row-major, and so are the pixels of a
cell. -/
def patternPixel (d : Depth) (patternWH base px py : Nat) : Nat × Nat :=
  let cellIndex := (py / cellPx) * patternWH + px / cellPx
  packedPixel d (base + cellIndex * cellBytes d) ((py % cellPx) * cellPx + px % cellPx)

/-- The `sub`-th 4-bit pixel of a word, 0 the leftmost (R156). -/
def dotOf4 (w : Word16) (sub : Nat) : BitVec 4 :=
  let f := pixD0OfWord w
  match sub with
  | 0 => f.a
  | 1 => f.b
  | 2 => f.c
  | _ => f.d

/-- The `sub`-th 8-bit pixel of a word, 0 the leftmost (R157). -/
def dotOf8 (w : Word16) (sub : Nat) : BitVec 8 :=
  let f := pixD1OfWord w
  match sub with
  | 0 => f.a
  | _ => f.b

/-- A palette pixel (R152): a zero dot of a layer with transparency enabled is transparent and RESOLVE is not evaluated. -/
def palettePixel (v : Snap) (cfg : LayerCfg) (dot index : Nat) : Option Pixel :=
  if cfg.transparencyEnable && dot == 0 then none else some (resolve v index cfg.alpha cfg.cramBankSel)

/-- A direct-colour pixel (R152): with transparency enabled it is transparent where its opacity flag is clear. -/
def directPixel (cfg : LayerCfg) (opaqueFlag : Bool) (c : Rgb) : Option Pixel :=
  if cfg.transparencyEnable && !opaqueFlag then none else some (rgba c cfg.alpha)

/-- Colour-memory index at depth 0 (R153): `(palAddr << 4) | dot`. -/
def indexD0 (palAddr : BitVec 7) (dot : BitVec 4) : Nat := (palAddr.toNat <<< 4) ||| dot.toNat

/-- Colour-memory index at depth 1 (R154): `((palAddr & 0x70) << 4) | dot`. -/
def indexD1 (palAddr : BitVec 7) (dot : BitVec 8) : Nat := ((palAddr.toNat &&& 0x70) <<< 4) ||| dot.toNat

/-- Depth 0 (R156). -/
def pixelD0 (v : Snap) (cfg : LayerCfg) (palAddr : BitVec 7) (wordAddr sub : Nat) : Option Pixel :=
  let dot := dotOf4 (vram16 v wordAddr) sub
  palettePixel v cfg dot.toNat (indexD0 palAddr dot)

/-- Depth 1 (R157). -/
def pixelD1 (v : Snap) (cfg : LayerCfg) (palAddr : BitVec 7) (wordAddr sub : Nat) : Option Pixel :=
  let dot := dotOf8 (vram16 v wordAddr) sub
  palettePixel v cfg dot.toNat (indexD1 palAddr dot)

/-- Depth 2 (R155, R158): the palette address does not enter. -/
def pixelD2 (v : Snap) (cfg : LayerCfg) (wordAddr : Nat) : Option Pixel :=
  let dot := (pixD2OfWord (vram16 v wordAddr)).i
  palettePixel v cfg dot.toNat dot.toNat

/-- Depth 3 (R159): colour memory is not read. -/
def pixelD3 (v : Snap) (cfg : LayerCfg) (wordAddr : Nat) : Option Pixel :=
  let w := vram16 v wordAddr
  directPixel cfg (pixD3OfWord w).o (expandOne w)

/-- Depth 4 (R160): colour memory is not read. -/
def pixelD4 (v : Snap) (cfg : LayerCfg) (wordAddr : Nat) : Option Pixel :=
  let f := pixD4OfWord (vram16 v wordAddr ++ vram16 v (wordAddr + 2))
  directPixel cfg f.o (expandTwo f.w1 f.w2)

/-- The form that the layer's depth selects (R150). -/
def pixelAtDepth (v : Snap) (cfg : LayerCfg) (palAddr : BitVec 7) (at_ : Nat × Nat) : Option Pixel :=
  match cfg.depth with
  | .d0 => pixelD0 v cfg palAddr at_.1 at_.2
  | .d1 => pixelD1 v cfg palAddr at_.1 at_.2
  | .d2 => pixelD2 v cfg at_.1
  | .d3 => pixelD3 v cfg at_.1
  | .d4 => pixelD4 v cfg at_.1

/-- `PIX.FETCH cfg, base, palAddr, px, py` (R150). -/
def pixFetch (v : Snap) (cfg : LayerCfg) (base : Nat) (palAddr : BitVec 7) (px py : Nat) : Option Pixel :=
  pixelAtDepth v cfg palAddr (patternPixel cfg.depth cfg.patternWH base px py)

/-- PIX.FETCH.D0 (R156). -/
def execPixFetchD0 (cfg : LayerCfg) (base : Nat) (palAddr : BitVec 7) (px py : Nat) (s : State) : Result :=
  let a := patternPixel .d0 cfg.patternWH base px py
  .next (s.reply (.fetched (pixelD0 s.snap cfg palAddr a.1 a.2)))

/-- PIX.FETCH.D1 (R157). -/
def execPixFetchD1 (cfg : LayerCfg) (base : Nat) (palAddr : BitVec 7) (px py : Nat) (s : State) : Result :=
  let a := patternPixel .d1 cfg.patternWH base px py
  .next (s.reply (.fetched (pixelD1 s.snap cfg palAddr a.1 a.2)))

/-- PIX.FETCH.D2 (R158): the palette address is an operand that does not enter. -/
def execPixFetchD2 (cfg : LayerCfg) (base : Nat) (_palAddr : BitVec 7) (px py : Nat) (s : State) : Result :=
  .next (s.reply (.fetched (pixelD2 s.snap cfg (patternPixel .d2 cfg.patternWH base px py).1)))

/-- PIX.FETCH.D3 (R159): the palette address is an operand that does not enter. -/
def execPixFetchD3 (cfg : LayerCfg) (base : Nat) (_palAddr : BitVec 7) (px py : Nat) (s : State) : Result :=
  .next (s.reply (.fetched (pixelD3 s.snap cfg (patternPixel .d3 cfg.patternWH base px py).1)))

/-- PIX.FETCH.D4 (R160): the palette address is an operand that does not enter. -/
def execPixFetchD4 (cfg : LayerCfg) (base : Nat) (_palAddr : BitVec 7) (px py : Nat) (s : State) : Result :=
  .next (s.reply (.fetched (pixelD4 s.snap cfg (patternPixel .d4 cfg.patternWH base px py).1)))

end Sys2Proof.Machine
end

