-- ==== Sys2Proof/Machine/TileAddressing.lean ====
section
/-! DEFINITION. Tile-map addressing and pattern-name decode (43_tile_addressing.md). -/

namespace Sys2Proof.Machine

/-! ## Geometry (R126, R127) -/

/-- Pixels per pattern side (R126). -/
def patPx (cfg : LayerCfg) : Nat := cellPx * cfg.patternWH

/-- Pixels per page side (R126): 512 for either pattern width. -/
def pagePx (cfg : LayerCfg) : Nat := cfg.pageWH * patPx cfg

/-- Pixels per plane, across (R126). -/
def planePxW (cfg : LayerCfg) : Nat := cfg.planeW * pagePx cfg

/-- Pixels per plane, down (R126). -/
def planePxH (cfg : LayerCfg) : Nat := cfg.planeH * pagePx cfg

/-- Bytes of one page of pattern names (R127). -/
def pageBytes (cfg : LayerCfg) : Nat := cfg.pageWH * cfg.pageWH * cfg.patternDataSize * 2

/-- A source coordinate of any sign wrapped into `n` pixels (R126): Euclidean. -/
def wrapCoord (x : Int) (n : Nat) : Nat := (x % n).toNat

/-! ## Addresses (R125 to R131) -/

/-- `SCROLL.COORD` (R125): the scroll origin is added. -/
def scrollCoordOf (cfg : LayerCfg) (sx sy : Nat) : Int × Int := (sx + cfg.scrollX, sy + cfg.scrollY)

/-- `PLANE.ADDR` (R128). -/
def planeBase (c : Config) (cfg : LayerCfg) (k : Nat) : Nat :=
  let v := (cfg.mapOffset <<< 6) ||| (cfg.planeSel.getD k 0 &&& 0x3F)
  let deca := cfg.planeW + cfg.planeH - 2
  let multi := cfg.planeW * cfg.planeH
  ((v >>> deca) * multi * pageBytes cfg) % c.vramBytes

/-- `PN.ADDR` (R131): the address of the pattern name and the in-pattern coordinate before flip. -/
def patternNameAt (c : Config) (cfg : LayerCfg) (pageAddr xg yg : Nat) : Nat × Nat × Nat :=
  let patIndex := (yg / patPx cfg) * cfg.pageWH + xg / patPx cfg
  ((pageAddr + patIndex * cfg.patternDataSize * 2) % c.vramBytes, xg % patPx cfg, yg % patPx cfg)

/-- From a source coordinate to its pattern name (R126, R129, R130, R131): map, plane, page, pattern. -/
def locatePattern (c : Config) (cfg : LayerCfg) (x y : Int) : Nat × Nat × Nat :=
  let xw := wrapCoord x (cfg.mapWH * planePxW cfg)
  let yw := wrapCoord y (cfg.mapWH * planePxH cfg)
  let k := (yw / planePxH cfg) * cfg.mapWH + xw / planePxW cfg
  let xp := xw % planePxW cfg
  let yp := yw % planePxH cfg
  let pageIndex := (yp / pagePx cfg) * cfg.planeW + xp / pagePx cfg
  patternNameAt c cfg (planeBase c cfg k + pageIndex * pageBytes cfg) (xp % pagePx cfg) (yp % pagePx cfg)

/-! ## Pattern-name decode (R132 to R138) -/

/-- The palette address of a one-word pattern name (R67): at depth 0 the supplement extends the palette number; at every other
depth three bits of it select the group. -/
def palAddr1w (p : BitVec 4) (ext : BitVec 3) : Depth → BitVec 7
  | .d0 => ext ++ p
  | .d1 | .d2 | .d3 | .d4 => p.extractLsb' 0 3 ++ 0#4

/-- Form (1, 0, 1) (R133). -/
def pnDecodeA0W1 (pn : Word16) (s : BitVec 10) (d : Depth) : PatInfo :=
  let f := pn1A0OfWord pn
  let e := suppOfBits s
  { charNo := f.c.setWidth 15 ||| (e.c.setWidth 15 <<< 10)
    palAddr := palAddr1w f.p e.p d, flipV := f.v, flipH := f.h, special := e.s }

/-- Form (1, 0, 2) (R134). -/
def pnDecodeA0W2 (pn : Word16) (s : BitVec 10) (d : Depth) : PatInfo :=
  let f := pn1A0OfWord pn
  let e := suppOfBits s
  { charNo := (f.c.setWidth 15 <<< 2) ||| (e.c.extractLsb' 0 2).setWidth 15 ||| ((e.c.extractLsb' 2 3).setWidth 15 <<< 12)
    palAddr := palAddr1w f.p e.p d, flipV := f.v, flipH := f.h, special := e.s }

/-- Form (1, 1, 1) (R135): no flips; supplement bits 4:3 do not enter. -/
def pnDecodeA1W1 (pn : Word16) (s : BitVec 10) (d : Depth) : PatInfo :=
  let f := pn1A1OfWord pn
  let e := suppOfBits s
  { charNo := f.c.setWidth 15 ||| ((e.c.extractLsb' 0 3).setWidth 15 <<< 12)
    palAddr := palAddr1w f.p e.p d, flipV := false, flipH := false, special := e.s }

/-- Form (1, 1, 2) (R136): no flips; supplement bits 3:2 do not enter. -/
def pnDecodeA1W2 (pn : Word16) (s : BitVec 10) (d : Depth) : PatInfo :=
  let f := pn1A1OfWord pn
  let e := suppOfBits s
  { charNo := (f.c.setWidth 15 <<< 2) ||| (e.c.extractLsb' 0 2).setWidth 15 ||| ((e.c.extractLsb' 4 1).setWidth 15 <<< 14)
    palAddr := palAddr1w f.p e.p d, flipV := false, flipH := false, special := e.s }

/-- The two-word form (R137): auxMode, pattern width, depth and supplement are not used. -/
def pnDecode2w (w1 w2 : Word16) : PatInfo :=
  let f := pn2OfWord (w1 ++ w2)
  { charNo := f.c, palAddr := f.p, flipV := f.v, flipH := f.h, special := f.s }

/-- The form that the configuration selects (R138): auxMode ≥ 2 with one-word names is reserved (R76). -/
def pnFormOf (cfg : LayerCfg) : Except Refusal PnForm :=
  if cfg.patternDataSize = 1 then
    match cfg.auxMode with
    | 0 => .ok (if cfg.patternWH = 1 then .oneA0W1 else .oneA0W2)
    | 1 => .ok (if cfg.patternWH = 1 then .oneA1W1 else .oneA1W2)
    | _ => .error .reservedAuxMode
  else .ok .two

/-- The pattern name at an address, fetched (R132) and decoded by the given form. -/
def patternAt (v : Snap) (cfg : LayerCfg) (f : PnForm) (addr : Nat) : PatInfo :=
  match f with
  | .oneA0W1 => pnDecodeA0W1 (vram16 v addr) cfg.supp cfg.depth
  | .oneA0W2 => pnDecodeA0W2 (vram16 v addr) cfg.supp cfg.depth
  | .oneA1W1 => pnDecodeA1W1 (vram16 v addr) cfg.supp cfg.depth
  | .oneA1W2 => pnDecodeA1W2 (vram16 v addr) cfg.supp cfg.depth
  | .two => pnDecode2w (vram16 v addr) (vram16 v (addr + 2))

/-! ## Character address, flip, and the whole path (R141 to R143) -/

/-- `CHAR.FIN` (R141): the mask is applied to the character number, before the × 32. -/
def charByteAddr (cfg : LayerCfg) (charNo : BitVec 15) : Nat :=
  (if cfg.charExt then charNo.toNat else charNo.toNat &&& 0x3FFF) * 32

/-- One in-pattern coordinate mirrored across the whole pattern (R142). -/
def flipCoord (flip : Bool) (cfg : LayerCfg) (p : Nat) : Nat := if flip then patPx cfg - 1 - p else p

/-- `TILE.PIXEL` with its pattern-name form chosen (R143). -/
def tilePixelWith (v : Snap) (cfg : LayerCfg) (f : PnForm) (x y : Int) : Option Pixel :=
  let at_ := locatePattern v.config cfg x y
  let info := patternAt v cfg f at_.1
  pixFetch v cfg (charByteAddr cfg info.charNo) info.palAddr (flipCoord info.flipH cfg at_.2.1) (flipCoord info.flipV cfg at_.2.2)

/-- `TILE.PIXEL cfg, X, Y` (R143). -/
def tilePixelOf (v : Snap) (cfg : LayerCfg) (x y : Int) : Except Refusal (Option Pixel) :=
  match pnFormOf cfg with
  | .ok f => .ok (tilePixelWith v cfg f x y)
  | .error r => .error r

/-- The outcome of an operation that answers a fetched pixel or is refused. -/
def replyPixel (p : Except Refusal (Option Pixel)) (s : State) : Result :=
  match p with
  | .ok q => .next (s.reply (.fetched q))
  | .error r => refuse r

/-- SCROLL.COORD (R125). -/
def execScrollCoord (cfg : LayerCfg) (sx sy : Nat) (s : State) : Result :=
  .next (s.reply (.coord (scrollCoordOf cfg sx sy).1 (scrollCoordOf cfg sx sy).2))

/-- PLANE.ADDR (R128). -/
def execPlaneAddr (cfg : LayerCfg) (k : Nat) (s : State) : Result := .next (s.reply (.address (planeBase s.config cfg k)))

/-- PN.ADDR (R131). -/
def execPnAddr (cfg : LayerCfg) (pageAddr xg yg : Nat) (s : State) : Result :=
  let a := patternNameAt s.config cfg pageAddr xg yg
  .next (s.reply (.patternName a.1 a.2.1 a.2.2))

/-- PN.DEC.1W.A0.W1 (R133). -/
def execPnDec1wA0W1 (pn : Word16) (supp : BitVec 10) (depth : Depth) (s : State) : Result :=
  .next (s.reply (.pattern (pnDecodeA0W1 pn supp depth)))

/-- PN.DEC.1W.A0.W2 (R134). -/
def execPnDec1wA0W2 (pn : Word16) (supp : BitVec 10) (depth : Depth) (s : State) : Result :=
  .next (s.reply (.pattern (pnDecodeA0W2 pn supp depth)))

/-- PN.DEC.1W.A1.W1 (R135). -/
def execPnDec1wA1W1 (pn : Word16) (supp : BitVec 10) (depth : Depth) (s : State) : Result :=
  .next (s.reply (.pattern (pnDecodeA1W1 pn supp depth)))

/-- PN.DEC.1W.A1.W2 (R136). -/
def execPnDec1wA1W2 (pn : Word16) (supp : BitVec 10) (depth : Depth) (s : State) : Result :=
  .next (s.reply (.pattern (pnDecodeA1W2 pn supp depth)))

/-- PN.DEC.2W (R137). -/
def execPnDec2w (w1 w2 : Word16) (s : State) : Result := .next (s.reply (.pattern (pnDecode2w w1 w2)))

/-- CHAR.FIN (R141). -/
def execCharFin (cfg : LayerCfg) (charNo : BitVec 15) (s : State) : Result :=
  .next (s.reply (.address (charByteAddr cfg charNo)))

/-- TILE.PIXEL (R143). -/
def execTilePixel (cfg : LayerCfg) (x y : Int) (s : State) : Result := replyPixel (tilePixelOf s.snap cfg x y) s

end Sys2Proof.Machine
end

