-- ==== Sys2Proof/Machine/LayerPixel.lean ====
section
/-! DEFINITION. Bitmap mode and the layer's answer for one screen position (44_pixel_fetch.md R163, R164; 45_rotation.md
R178). -/

namespace Sys2Proof.Machine

/-- `BITMAP.PIXEL cfg, X, Y` (R163): one row-major array that repeats in both directions; no pattern name, so no flip. -/
def bitmapPixelOf (v : Snap) (cfg : LayerCfg) (x y : Int) : Option Pixel :=
  let n := wrapCoord y cfg.bmH * cfg.bmW + wrapCoord x cfg.bmW
  pixelAtDepth v cfg cfg.bmPal (packedPixel cfg.depth cfg.bmBase n)

/-- The source coordinate of a screen position (R164): the rotation layer's generator, or the scroll layers' (R170). -/
def sourceCoord (cfg : LayerCfg) (sx sy : Nat) : Int × Int :=
  match cfg.rot with
  | some r => rotCoordOf r sx sy
  | none => scrollCoordOf cfg sx sy

/-- How a layer answers every position: from its bitmap, or through one pattern-name form. -/
inductive PixelPath where
  | bitmap
  | tile (f : PnForm)
deriving DecidableEq, Repr

/-- The path that the configuration selects: bitmap mode bypasses the pattern names (R108, R163). -/
def pixelPathOf (cfg : LayerCfg) : Except Refusal PixelPath :=
  if cfg.bitmap then .ok .bitmap
  else match pnFormOf cfg with
    | .ok f => .ok (.tile f)
    | .error r => .error r

/-- `LAYER.PIXEL` along a path (R164). -/
def layerPixelWith (v : Snap) (cfg : LayerCfg) (p : PixelPath) (sx sy : Nat) : Option Pixel :=
  let at_ := sourceCoord cfg sx sy
  match p with
  | .bitmap => bitmapPixelOf v cfg at_.1 at_.2
  | .tile f => tilePixelWith v cfg f at_.1 at_.2

/-- `LAYER.PIXEL cfg, sx, sy` (R164). -/
def layerPixelOf (v : Snap) (cfg : LayerCfg) (sx sy : Nat) : Except Refusal (Option Pixel) :=
  match pixelPathOf cfg with
  | .ok p => .ok (layerPixelWith v cfg p sx sy)
  | .error r => .error r

/-- BITMAP.PIXEL (R163). -/
def execBitmapPixel (cfg : LayerCfg) (x y : Int) (s : State) : Result :=
  .next (s.reply (.fetched (bitmapPixelOf s.snap cfg x y)))

/-- LAYER.PIXEL (R164). -/
def execLayerPixel (cfg : LayerCfg) (sx sy : Nat) (s : State) : Result := replyPixel (layerPixelOf s.snap cfg sx sy) s

/-- ROT.PIXEL (R178): LAYER.PIXEL of the rotation layer. -/
def execRotPixel (cfg : LayerCfg) (sx sy : Nat) (s : State) : Result := replyPixel (layerPixelOf s.snap cfg sx sy) s

end Sys2Proof.Machine
end

