-- ==== Sys2Proof/Machine/Compositor.lean ====
section
/-! DEFINITION. The priority compositor and the layer-to-output blender (46_compositor.md). -/

namespace Sys2Proof.Machine

/-- The six drawable entries in index order (R185). -/
def allLayers : List Layer := [.bg .nbg0, .bg .nbg1, .bg .nbg2, .bg .nbg3, .bg .rbg0, .sprite]

/-- `GET.PRI L` (R188). -/
def priorityOf (c : Config) (reg : Bank) (port : SpritePort) : Layer → Nat
  | .bg b => fld reg (layerFields c b).pri
  | .sprite => port.priority.toNat

/-- `INNER.PRI L` (R189): a constant of the build. -/
def innerRankOf (c : Config) : Layer → Nat
  | .bg b => bgRank b
  | .sprite => c.innerRankSprite

/-- `enabled(L)` (R190). -/
def layerEnabled (c : Config) (reg : Bank) (port : SpritePort) : Layer → Bool
  | .bg b => bgEnabled c reg b
  | .sprite => port.enable

/-- The lexicographic order of the pairs (GET.PRI, INNER.PRI) (R190). -/
def drawnBefore (c : Config) (reg : Bank) (port : SpritePort) (l m : Layer) : Bool :=
  decide (priorityOf c reg port l < priorityOf c reg port m)
    || (priorityOf c reg port l == priorityOf c reg port m && decide (innerRankOf c l ≤ innerRankOf c m))

/-- A layer put before the first entry that it is drawn before. -/
def insertLayer (le : Layer → Layer → Bool) (l : Layer) : List Layer → List Layer
  | [] => [l]
  | m :: rest => if le l m then l :: m :: rest else m :: insertLayer le l rest

/-- A list of layers sorted by insertion; entries with equal keys keep their order. -/
def sortLayers (le : Layer → Layer → Bool) : List Layer → List Layer
  | [] => []
  | l :: rest => insertLayer le l (sortLayers le rest)

/-- Whether SORT keeps a layer (R190): priority not 0, and enabled. -/
def layerKept (c : Config) (reg : Bank) (port : SpritePort) (l : Layer) : Bool :=
  priorityOf c reg port l != 0 && layerEnabled c reg port l

/-- `SORT` (R190): the draw order, first element lowest. -/
def drawOrder (c : Config) (reg : Bank) (port : SpritePort) : List Layer :=
  sortLayers (drawnBefore c reg port) (allLayers.filter (layerKept c reg port))

/-- `COLOFS` (R194): additive, saturating at both ends, the alpha channel as it is. -/
def offsetPixel (p : Pixel) (o : ColorOffset) : Pixel :=
  { r := clampChannel (p.r.toNat + o.r), g := clampChannel (p.g.toNat + o.g), b := clampChannel (p.b.toNat + o.b), a := p.a }

/-- `BLEND dst, src` (R196): law B1 for an opaque source, and otherwise the OPEN function P_BLEND of the two pixels (B2). -/
def blendPixel (dst src : Pixel) : Pixel := if src.a = 0xFF#8 then src else Config.blendOpen dst src

/-- `spritePixel(x, y)` of the SPRITE port (R187). -/
def spritePixelAt (port : SpritePort) (x y : Nat) : Option Pixel := port.pixels.lookup (x, y)

/-- A background layer's pixel with its colour offset folded in (R194, R197). -/
def shadedPixel (v : Snap) (cfg : LayerCfg) (p : PixelPath) (x y : Nat) : Option Pixel :=
  (layerPixelWith v cfg p x y).map (fun q => offsetPixel q cfg.colorOffset)

/-- What a layer draws at each position (R197): the sprite layer's pixels as the port answers them, a background layer's through
its configuration, which may be refused. -/
def layerSource (v : Snap) (port : SpritePort) : Layer → Except Refusal (Nat → Nat → Option Pixel)
  | .sprite => .ok (spritePixelAt port)
  | .bg b =>
    match layerInitOf v b with
    | .error r => .error r
    | .ok cfg =>
      match pixelPathOf cfg with
      | .error r => .error r
      | .ok p => .ok (shadedPixel v cfg p)

/-- One position of LAYER.DRAW (R197): a transparent pixel leaves what is there. -/
def paintPixel (dst : Pixel) : Option Pixel → Pixel
  | none => dst
  | some p => blendPixel dst p

/-- A layer's pixels drawn into a surface (R197). -/
def paintSurface (sf : Surface) (src : Nat → Nat → Option Pixel) : Surface :=
  buildSurface sf.w sf.h (fun x y => paintPixel (surfaceAt sf x y) (src x y))

/-- `LAYER.DRAW L` (R197). -/
def drawLayer (v : Snap) (port : SpritePort) (l : Layer) (sf : Surface) : Except Refusal Surface :=
  match layerSource v port l with
  | .ok src => .ok (paintSurface sf src)
  | .error r => .error r

/-- The layers drawn first to last (R198). -/
def drawLayers (v : Snap) (port : SpritePort) : List Layer → Surface → Except Refusal Surface
  | [], sf => .ok sf
  | l :: rest, sf =>
    match drawLayer v port l sf with
    | .ok sf' => drawLayers v port rest sf'
    | .error r => .error r

/-- The cleared surface at the configured resolution (R198). -/
def clearedSurface (v : Snap) : Surface :=
  buildSurface (resolution v.config v.reg).1 (resolution v.config v.reg).2 (fun _ _ => v.config.clear)

/-- `fld(DISP) = 1` (R15). -/
def displayOn (v : Snap) : Bool := fld v.reg v.config.regmap.disp == 1

/-- `DRAWFRAME` (R198). -/
def drawFrame (v : Snap) (port : SpritePort) : Except Refusal Surface :=
  if displayOn v then drawLayers v port (drawOrder v.config v.reg port) (clearedSurface v) else .ok (clearedSurface v)

/-- DRAWFRAME on a state: only the surface changes. -/
def drawFrameOn (s : State) : Except Refusal State :=
  match drawFrame s.snap s.sprite with
  | .ok sf => .ok (s.setSurface sf)
  | .error r => .error r

/-- `PRESENT` (R199): the output carries the value of the whole surface. -/
def presentSurface (s : State) : State := s.emit (.present s.surface.w s.surface.h s.surface.px)

/-- GET.PRI (R188). -/
def execGetPri (index : Nat) (s : State) : Result :=
  withLayer index (fun l => .next (s.reply (.priority (priorityOf s.config s.reg s.sprite l))))

/-- INNER.PRI (R189). -/
def execInnerPri (index : Nat) (s : State) : Result := withLayer index (fun l => .next (s.reply (.rank (innerRankOf s.config l))))

/-- SORT (R190). -/
def execSort (s : State) : Result := .next (s.reply (.order (drawOrder s.config s.reg s.sprite)))

/-- COLOFS (R194). -/
def execColofs (p : Pixel) (cr cg cb : Int) (s : State) : Result :=
  .next (s.reply (.pixel (offsetPixel p { r := cr, g := cg, b := cb })))

/-- BLEND (R196). -/
def execBlend (dst src : Pixel) (s : State) : Result := .next (s.reply (.pixel (blendPixel dst src)))

/-- LAYER.DRAW (R197). The rule's operand is a member of SORT's result; a layer that is none (priority 0, or disabled), which no
port can hand to it, is drawn or refused in the same way. DESIGN CHOICE, log entry 25. -/
def execLayerDraw (index : Nat) (s : State) : Result :=
  withLayer index (fun l =>
    match drawLayer s.snap s.sprite l s.surface with
    | .ok sf => .next (s.setSurface sf)
    | .error r => refuse r)

/-- DRAWFRAME (R198). -/
def execDrawframe (s : State) : Result :=
  match drawFrameOn s with
  | .ok t => .next t
  | .error r => refuse r

/-- PRESENT (R199). -/
def execPresent (s : State) : Result := .next (presentSurface s)

end Sys2Proof.Machine
end

