-- ==== Sys2Proof/Machine/Timing.lean ====
section
/-! DEFINITION. The timing controller and the frame's life (47_timing.md): the four edge operations. Each is accepted in every
state and performs its whole operation (R205); the flag is updated before the notification is emitted (R226). -/

namespace Sys2Proof.Machine

/-- HBIN (R206). -/
def execHbin (s : State) : Result := .next ((s.setBank (setFlag s.reg s.config.regmap.hblank)).emit (.notify .hbin))

/-- HBOUT (R207). -/
def execHbout (s : State) : Result := .next ((s.setBank (clrFlag s.reg s.config.regmap.hblank)).emit (.notify .hbout))

/-- VBIN (R208): the slave unit gets its distinct code, after the interrupt controller, when it is active. -/
def execVbin (slaveActive : Bool) (s : State) : Result :=
  let t := (s.setBank (setFlag s.reg s.config.regmap.vblank)).emit (.notify .vbin)
  .next (if slaveActive then t.emit (.notifySlave .slaveVbin) else t)

/-- The two flag updates of VBOUT (R209, R211): VBLANK cleared, ODD set. -/
def vboutFlags (s : State) : State :=
  s.setBank (setFlag (clrFlag s.reg s.config.regmap.vblank) s.config.regmap.odd)

/-- VBOUT (R209): the flags, DRAWFRAME, PRESENT, the notification. A refusal of DRAWFRAME is the outcome of the whole event
(R224). -/
def execVbout (s : State) : Result :=
  match drawFrameOn (vboutFlags s) with
  | .ok t => .next ((presentSurface t).emit (.notify .vbout))
  | .error r => refuse r

end Sys2Proof.Machine
end

