-- ==== Sys2Proof/Machine/Dispatch.lean ====
section
/-! DEFINITION. One arm per constructor of Instr: each is one direct call of the operation's meaning. -/

namespace Sys2Proof.Machine

def exec (i : Instr) (s : State) : Host.Outcome State Fault Refusal :=
  match i with
  | .regwr off val => Sys2Proof.Machine.execRegwr off val s
  | .regwrRes val => Sys2Proof.Machine.execRegwrRes val s
  | .regwrRammode val => Sys2Proof.Machine.execRegwrRammode val s
  | .regwrPri0F8 val => Sys2Proof.Machine.execRegwrPri0F8 val s
  | .regwrPri0FA val => Sys2Proof.Machine.execRegwrPri0FA val s
  | .regwrPri0FC val => Sys2Proof.Machine.execRegwrPri0FC val s
  | .regrd off => Sys2Proof.Machine.execRegrd off s
  | .vramwrB addr val => Sys2Proof.Machine.execVramwrB addr val s
  | .vramwrW addr val => Sys2Proof.Machine.execVramwrW addr val s
  | .vramwrL addr val => Sys2Proof.Machine.execVramwrL addr val s
  | .vramrdB addr => Sys2Proof.Machine.execVramrdB addr s
  | .vramrdW addr => Sys2Proof.Machine.execVramrdW addr s
  | .vramrdL addr => Sys2Proof.Machine.execVramrdL addr s
  | .cramwrB addr val => Sys2Proof.Machine.execCramwrB addr val s
  | .cramwrW addr val => Sys2Proof.Machine.execCramwrW addr val s
  | .cramwrL addr val => Sys2Proof.Machine.execCramwrL addr val s
  | .cramrdB addr => Sys2Proof.Machine.execCramrdB addr s
  | .cramrdW addr => Sys2Proof.Machine.execCramrdW addr s
  | .cramrdL addr => Sys2Proof.Machine.execCramrdL addr s
  | .hbin => Sys2Proof.Machine.execHbin s
  | .hbout => Sys2Proof.Machine.execHbout s
  | .vbin slaveActive => Sys2Proof.Machine.execVbin slaveActive s
  | .vbout => Sys2Proof.Machine.execVbout s
  | .fmtPn1A0 w => Sys2Proof.Machine.execFmtPn1A0 w s
  | .fmtPn1A1 w => Sys2Proof.Machine.execFmtPn1A1 w s
  | .fmtPn2 w => Sys2Proof.Machine.execFmtPn2 w s
  | .fmtSupp supp => Sys2Proof.Machine.execFmtSupp supp s
  | .fmtPixD0 w => Sys2Proof.Machine.execFmtPixD0 w s
  | .fmtPixD1 w => Sys2Proof.Machine.execFmtPixD1 w s
  | .fmtPixD2 w => Sys2Proof.Machine.execFmtPixD2 w s
  | .fmtPixD3 w => Sys2Proof.Machine.execFmtPixD3 w s
  | .fmtPixD4 w => Sys2Proof.Machine.execFmtPixD4 w s
  | .fmtColor1 w => Sys2Proof.Machine.execFmtColor1 w s
  | .fmtColofs w => Sys2Proof.Machine.execFmtColofs w s
  | .cramMode => Sys2Proof.Machine.execCramMode s
  | .resolveLegacy index alpha bankSel => Sys2Proof.Machine.execResolveLegacy index alpha bankSel s
  | .resolveWide index alpha bankSel => Sys2Proof.Machine.execResolveWide index alpha bankSel s
  | .resolveExt index alpha bankSel => Sys2Proof.Machine.execResolveExt index alpha bankSel s
  | .expand1 w => Sys2Proof.Machine.execExpand1 w s
  | .expand2 w1 w2 => Sys2Proof.Machine.execExpand2 w1 w2 s
  | .layerInit l => Sys2Proof.Machine.execLayerInit l s
  | .scrollCoord cfg sx sy => Sys2Proof.Machine.execScrollCoord cfg sx sy s
  | .planeAddr cfg k => Sys2Proof.Machine.execPlaneAddr cfg k s
  | .pnAddr cfg pageAddr xg yg => Sys2Proof.Machine.execPnAddr cfg pageAddr xg yg s
  | .pnDec1wA0W1 pn supp depth => Sys2Proof.Machine.execPnDec1wA0W1 pn supp depth s
  | .pnDec1wA0W2 pn supp depth => Sys2Proof.Machine.execPnDec1wA0W2 pn supp depth s
  | .pnDec1wA1W1 pn supp depth => Sys2Proof.Machine.execPnDec1wA1W1 pn supp depth s
  | .pnDec1wA1W2 pn supp depth => Sys2Proof.Machine.execPnDec1wA1W2 pn supp depth s
  | .pnDec2w w1 w2 => Sys2Proof.Machine.execPnDec2w w1 w2 s
  | .charFin cfg charNo => Sys2Proof.Machine.execCharFin cfg charNo s
  | .tilePixel cfg x y => Sys2Proof.Machine.execTilePixel cfg x y s
  | .pixFetchD0 cfg base palAddr px py => Sys2Proof.Machine.execPixFetchD0 cfg base palAddr px py s
  | .pixFetchD1 cfg base palAddr px py => Sys2Proof.Machine.execPixFetchD1 cfg base palAddr px py s
  | .pixFetchD2 cfg base palAddr px py => Sys2Proof.Machine.execPixFetchD2 cfg base palAddr px py s
  | .pixFetchD3 cfg base palAddr px py => Sys2Proof.Machine.execPixFetchD3 cfg base palAddr px py s
  | .pixFetchD4 cfg base palAddr px py => Sys2Proof.Machine.execPixFetchD4 cfg base palAddr px py s
  | .bitmapPixel cfg x y => Sys2Proof.Machine.execBitmapPixel cfg x y s
  | .layerPixel cfg sx sy => Sys2Proof.Machine.execLayerPixel cfg sx sy s
  | .rotAddr => Sys2Proof.Machine.execRotAddr s
  | .rotLoad => Sys2Proof.Machine.execRotLoad s
  | .rotCoord rot hcnt vcnt => Sys2Proof.Machine.execRotCoord rot hcnt vcnt s
  | .rotPixel cfg sx sy => Sys2Proof.Machine.execRotPixel cfg sx sy s
  | .getPri index => Sys2Proof.Machine.execGetPri index s
  | .innerPri index => Sys2Proof.Machine.execInnerPri index s
  | .sort => Sys2Proof.Machine.execSort s
  | .colofs p cr cg cb => Sys2Proof.Machine.execColofs p cr cg cb s
  | .blend dst src => Sys2Proof.Machine.execBlend dst src s
  | .layerDraw index => Sys2Proof.Machine.execLayerDraw index s
  | .drawframe => Sys2Proof.Machine.execDrawframe s
  | .present => Sys2Proof.Machine.execPresent s

end Sys2Proof.Machine
end

