-- ==== Sys2Proof/Machine/Sequencing.lean ====
section
/-! DEFINITION. Sequencing: one operation per input event, run to completion before the next event is accepted (R5, R12, R226).
The block fetches no program: what it takes is the input event at the head of the inbox. -/

namespace Sys2Proof.Machine

/-- One input event: decoded first, then its operation runs with the SPRITE port's answers sampled with it (R223, R187). Words
that are no event raise `BadEvent` with the header word. -/
def runInput (inp : Input) (rest : List Input) (s : State) : Result :=
  match decode inp.w0 inp.w1 with
  | .ok i => exec i (s.accept inp rest)
  | .error _ => raise (.badEvent inp.w0)

/-- One step: the next input event, or nothing. With an empty inbox the block is idle (R234) and the state stays as it is. -/
def runNext (s : State) : Result :=
  match s.inbox with
  | [] => .next s
  | inp :: rest => runInput inp rest s

/-- The state with one more event at the head of its inbox: the event whose bits are `w`, bit 0 of W0 first, every bit from
`nbits` on being 0. The SPRITE port answers at that event what it answers now. -/
def placeEvent (s : State) (nbits w : Nat) : State :=
  let n := w % 2 ^ nbits
  { s with inbox := { w0 := BitVec.ofNat 32 n, w1 := BitVec.ofNat 32 (n / 2 ^ 32), sprite := s.sprite } :: s.inbox }

end Sys2Proof.Machine
end

