-- ==== Sys2Proof/Machine/Step.lean ====
section
/-! DEFINITION. The step of the machine, and the state in which its next step runs a given event. -/

namespace Sys2Proof.Machine

/-- One step (R5): the input event at the head of the inbox. -/
def step (s : State) : Host.Outcome State Fault Refusal := runNext s

/-- The state whose next step takes the event with the bits `w` (log entry 19). -/
def State.withFetchWord (s : State) (nbits w : Nat) : State := placeEvent s nbits w

end Sys2Proof.Machine
end

