-- ==== Sys2Proof/Safety.lean ====
section
/-! DEFINITION. What counts as a safe run: the port contract of an event (R220 to R222), the frames that are not refused (R224),
the launch states (R240), and the invariant of the state (R28, R29, 20_memory.md). -/

namespace Sys2Proof.Machine

/-- The operation is an input event (R60), not a data format and not an internal operation. -/
def isEvent (i : Instr) : Bool := (encode i).isSome

/-- The operands of an event satisfy the port contract (R44, R222). -/
def inContract (c : Config) : Instr → Bool
  | .regwr off _ | .regrd off => offsetOk off.toNat
  | .vramwrB addr _ | .vramrdB addr => accessOk c.vramBytes addr.toNat 1
  | .vramwrW addr _ | .vramrdW addr => accessOk c.vramBytes addr.toNat 2
  | .vramwrL addr _ | .vramrdL addr => accessOk c.vramBytes addr.toNat 4
  | .cramwrB addr _ | .cramrdB addr => accessOk cramBytes addr.toNat 1
  | .cramwrW addr _ | .cramrdW addr => accessOk cramBytes addr.toNat 2
  | .cramwrL addr _ | .cramrdL addr => accessOk cramBytes addr.toNat 4
  | _ => true

/-- A layer whose configuration selects no reserved mode (R224): its depth is not reserved, and in tile mode a one-word pattern
name has an auxMode below 2. -/
def layerDrawable (c : Config) (reg : Bank) : Layer → Bool
  | .sprite => true
  | .bg b =>
    let f := layerFields c b
    decide (fld reg f.chcn ≤ 4)
      && ((bgBitmapCapable b && fldOpt reg f.bmen == 1) || fld reg f.pnb != 1 || decide (fld reg f.cnsm ≤ 1))

/-- A frame that is not refused (R224): with the display enabled, every layer that SORT keeps is drawable. -/
def frameDrawable (c : Config) (reg : Bank) (port : SpritePort) : Prop :=
  fld reg c.regmap.disp = 1 → ∀ l ∈ allLayers, layerKept c reg port l = true → layerDrawable c reg l = true

/-- A launch state (R240): the reset registers, any bytes in the memories, any pixels on a surface of the reset size. -/
def launch (vram cram : Memory) (px : Pixels) : State :=
  { State.reset with vram := vram, cram := cram, surface := { w := 320, h := 224, px := px } }

/-- The invariant: the configuration is well-formed, each memory is in canonical form and inside its space, the surface's rows
have its size, and that size is the decoded resolution (R29, R83). -/
structure Inv (s : State) : Prop where
  configWf : s.config.wf = true
  vramWf : s.vram.wf
  vramWithin : s.vram.within s.config.vramBytes
  cramWf : s.cram.wf
  cramWithin : s.cram.within cramBytes
  surfaceWf : s.surface.wf
  surfaceSize : (s.surface.w, s.surface.h) = resolution s.config s.reg

/-- A safe run of one step: the next event is an event of R60 and its operands satisfy the port contract. -/
def stepInContract (s : State) : Prop :=
  ∀ inp rest, s.inbox = inp :: rest → ∃ i, decode inp.w0 inp.w1 = .ok i ∧ inContract s.config i = true

/-! ## Kinds of operations (R45, R51) -/

/-- The register number that a host register write stores to. -/
def registerWritten : Instr → Option Nat
  | .regwr off _ => some off.toNat
  | .regwrRes _ => some 0x000
  | .regwrRammode _ => some 0x00E
  | .regwrPri0F8 _ => some 0x0F8
  | .regwrPri0FA _ => some 0x0FA
  | .regwrPri0FC _ => some 0x0FC
  | _ => none

/-- The operation is a host write of video memory. -/
def isVramWrite : Instr → Bool
  | .vramwrB _ _ | .vramwrW _ _ | .vramwrL _ _ => true
  | _ => false

/-- The operation is a host write of colour memory. -/
def isCramWrite : Instr → Bool
  | .cramwrB _ _ | .cramwrW _ _ | .cramwrL _ _ => true
  | _ => false

/-- The operation is a timing edge. -/
def isEdge : Instr → Bool
  | .hbin | .hbout | .vbin _ | .vbout => true
  | _ => false

/-- The operation draws into the surface. -/
def draws : Instr → Bool
  | .vbout | .drawframe | .layerDraw _ => true
  | _ => false

/-- The operation presents a frame. -/
def presents : Instr → Bool
  | .vbout | .present => true
  | _ => false

/-- The operation only answers (R45): reads of the host port, data formats, and the internal operations that compute a value. -/
def onlyAnswers (i : Instr) : Bool :=
  (registerWritten i).isNone && !isVramWrite i && !isCramWrite i && !isEdge i && !draws i && !presents i

/-- How many low bits of the data word an event carries (R60): the size of the value written, and none for any other event. -/
def dataBits : Instr → Nat
  | .vramwrB _ _ | .cramwrB _ _ => 8
  | .regwr _ _ | .regwrRes _ | .regwrRammode _ | .regwrPri0F8 _ | .regwrPri0FA _ | .regwrPri0FC _ => 16
  | .vramwrW _ _ | .cramwrW _ _ => 16
  | .vramwrL _ _ | .cramwrL _ _ => 32
  | _ => 0

/-- How many frames a list of outputs presents. -/
def presentCount : List Output → Nat
  | [] => 0
  | .present _ _ _ :: rest => presentCount rest + 1
  | .notify _ :: rest => presentCount rest
  | .notifySlave _ :: rest => presentCount rest

end Sys2Proof.Machine
end

