-- ==== Sys2Proof/Certificates/Slice0/Obligations.lean ====
section
/-! DEFINITION. The statements for the provers. The definitions of `Sys2Proof.Claims` say, in plain number arithmetic, what the
rules of the spec give; the statements compare the model's operations with them. -/

open Sys2Proof Sys2Proof.Machine

namespace Sys2Proof.Claims

/-! ## The vocabulary of the statements -/

/-- The operation ends normally, and the answer `v` is all it leaves: every other part of the state is as it was. -/
def Answers (s : State) (i : Instr) (v : Answer) : Prop :=
  exec i s = .next (s.reply v)

/-- The operations of a list, one after the other, up to the first that does not end normally. -/
def execAll : List Instr → State → Host.Outcome State Fault Refusal
  | [], s => .next s
  | i :: rest, s =>
    match exec i s with
    | .next t => execAll rest t
    | .fault f => .fault f
    | .refused r => .refused r

/-- The bits `lsb + width − 1 .. lsb` of the register at `off`, as a number. -/
def regBits (reg : Bank) (off lsb width : Nat) : Nat :=
  (regGet reg off).toNat / 2 ^ lsb % 2 ^ width

/-- The `n` bytes of a space from `addr` on, as a big-endian number (R41), addresses reduced modulo the size of the space. -/
def bigEndian (sp : Space) (m : Memory) (size addr : Nat) : Nat → Nat
  | 0 => 0
  | n + 1 => bigEndian sp m size addr n * 256 + (readByte sp m size (addr + n)).toNat

/-- The low `n` bits of `v` as a two's-complement number. -/
def signed (n v : Nat) : Int :=
  if v % 2 ^ n < 2 ^ (n - 1) then ((v % 2 ^ n : Nat) : Int) else ((v % 2 ^ n : Nat) : Int) - (2 ^ n : Nat)

/-- `m'` is `m` with the `n` bytes of `v` stored big-endian at `addr`, and every other byte as it was. -/
def Stored (sp : Space) (size : Nat) (m m' : Memory) (addr n v : Nat) : Prop :=
  ∀ a, a < size → (readByte sp m' size a).toNat
    = if addr ≤ a ∧ a < addr + n then v / 256 ^ (addr + n - 1 - a) % 256 else (readByte sp m size a).toNat

/-- `m'` is `m` with the `n` bytes of `v` stored big-endian at `addr` and, where `mirrored`, also in the other half of colour
memory; every other byte is as it was. -/
def StoredTwice (mirrored : Prop) (m m' : Memory) (addr n v : Nat) : Prop :=
  ∀ a, a < 0x1000 →
    let b := (a + 0x800) % 0x1000
    (addr ≤ a ∧ a < addr + n → (readByte .cram m' 0x1000 a).toNat = v / 256 ^ (addr + n - 1 - a) % 256)
      ∧ (mirrored → addr ≤ b ∧ b < addr + n → (readByte .cram m' 0x1000 a).toNat = v / 256 ^ (addr + n - 1 - b) % 256)
      ∧ (¬(addr ≤ a ∧ a < addr + n) → ¬(mirrored ∧ addr ≤ b ∧ b < addr + n) → readByte .cram m' 0x1000 a = readByte .cram m 0x1000 a)

/-- A host write of `n` bytes to video memory (R87): the store and nothing else, or the fault. -/
def VideoMemoryWrite (s : State) (i : Instr) (addr n v : Nat) : Prop :=
  (addr % n = 0 ∧ addr + n ≤ s.config.vramBytes →
      ∃ m, exec i s = .next (s.setVram m) ∧ Stored .vram s.config.vramBytes s.vram m addr n v)
    ∧ (¬(addr % n = 0 ∧ addr + n ≤ s.config.vramBytes) → exec i s = .fault (.badMemAccess .vram addr n))

/-- A host write of `n` bytes to colour memory (R93): the store, its mirror in legacy mode and nothing else, or the fault. -/
def ColourMemoryWrite (s : State) (i : Instr) (addr n v : Nat) : Prop :=
  (addr % n = 0 ∧ addr + n ≤ 0x1000 →
      ∃ m, exec i s = .next (s.setCram m) ∧ StoredTwice (cramModeOf s.config s.reg = .legacy) s.cram m addr n v)
    ∧ (¬(addr % n = 0 ∧ addr + n ≤ 0x1000) → exec i s = .fault (.badMemAccess .cram addr n))

/-- `reg'` is `reg` with the one bit of the field `f` made `b`: the other fifteen bits of its register and every other register are
as they were (47_timing.md, SET and CLR). -/
def FlagWritten (reg reg' : Bank) (f : Field) (b : Bool) : Prop :=
  (∀ off, off % 2 = 0 → off ≤ 0x1FE → off ≠ f.off → regGet reg' off = regGet reg off)
    ∧ ∀ j, j < 16 → (regGet reg' f.off).getLsbD j = if j = f.lsb then b else (regGet reg f.off).getLsbD j

/-- `p` is the 5-5-5 colour of the word `w` (R92) with the alpha channel `a`. -/
def IsColour (p : Pixel) (w : Nat) (a : Byte) : Prop :=
  p.r.toNat = w % 32 * 8 ∧ p.g.toNat = w / 32 % 32 * 8 ∧ p.b.toNat = w / 1024 % 32 * 8 ∧ p.a = a

/-- The number of a depth (R109). -/
def depthNumber : Depth → Nat
  | .d0 => 0
  | .d1 => 1
  | .d2 => 2
  | .d3 => 3
  | .d4 => 4

/-- The index of a drawable layer (R106). -/
def indexOf : Layer → Nat
  | .bg .nbg0 => 0
  | .bg .nbg1 => 1
  | .bg .nbg2 => 2
  | .bg .nbg3 => 3
  | .bg .rbg0 => 4
  | .sprite => 5

/-- The form of RESOLVE that the colour-memory mode selects. -/
def resolveOp (s : State) (index : Nat) (alpha : Byte) (bankSel : Nat) : Instr :=
  match cramModeOf s.config s.reg with
  | .legacy => .resolveLegacy index alpha bankSel
  | .wide => .resolveWide index alpha bankSel
  | .extended => .resolveExt index alpha bankSel

/-- A palette pixel (R152): none where transparency is enabled and the dot is 0, and otherwise what RESOLVE answers. -/
def PalettePixel (s : State) (cfg : LayerCfg) (dot index : Nat) (i : Instr) : Prop :=
  (cfg.transparencyEnable = true ∧ dot = 0 → Answers s i (.fetched none))
    ∧ (¬(cfg.transparencyEnable = true ∧ dot = 0) →
        ∃ p, Answers s (resolveOp s index cfg.alpha cfg.cramBankSel) (.pixel p) ∧ Answers s i (.fetched (some p)))

/-- The byte address of the cell that holds the pixel (px, py) of a pattern (R151). -/
def cellAddr (cfg : LayerCfg) (base cellBytes px py : Nat) : Nat :=
  base + (py / 8 * cfg.patternWH + px / 8) * cellBytes

/-- The form of PIX.FETCH that the depth selects (R150). -/
def fetchOp (cfg : LayerCfg) (base : Nat) (palAddr : BitVec 7) (px py : Nat) : Instr :=
  match cfg.depth with
  | .d0 => .pixFetchD0 cfg base palAddr px py
  | .d1 => .pixFetchD1 cfg base palAddr px py
  | .d2 => .pixFetchD2 cfg base palAddr px py
  | .d3 => .pixFetchD3 cfg base palAddr px py
  | .d4 => .pixFetchD4 cfg base palAddr px py

/-- The form of PN.DEC that the configuration selects for the pattern name at `a` (R132, R138); none where it is reserved. -/
def nameOp (s : State) (cfg : LayerCfg) (a : Nat) : Option Instr :=
  let word := fun b => BitVec.ofNat 16 (bigEndian .vram s.vram s.config.vramBytes b 2)
  if cfg.patternDataSize = 2 then some (.pnDec2w (word a) (word (a + 2)))
  else if cfg.auxMode = 0 ∧ cfg.patternWH = 1 then some (.pnDec1wA0W1 (word a) cfg.supp cfg.depth)
  else if cfg.auxMode = 0 then some (.pnDec1wA0W2 (word a) cfg.supp cfg.depth)
  else if cfg.auxMode = 1 ∧ cfg.patternWH = 1 then some (.pnDec1wA1W1 (word a) cfg.supp cfg.depth)
  else if cfg.auxMode = 1 then some (.pnDec1wA1W2 (word a) cfg.supp cfg.depth)
  else none

/-- Bytes of one page of pattern names: the table of R127. -/
def pageSize (cfg : LayerCfg) : Nat :=
  if cfg.patternDataSize = 1 then (if cfg.patternWH = 1 then 0x2000 else 0x0800)
  else (if cfg.patternWH = 1 then 0x4000 else 0x1000)

/-- One entry of the rotation table at `t` (R172): `size` bytes at `t + off`, bits above `top` and below `low` ignored, bit `top` the
sign, divided by `2^frac`. -/
def tableEntry (s : State) (t off size top low frac : Nat) : Rat :=
  (signed (top + 1) (bigEndian .vram s.vram s.config.vramBytes (t + off) size % 2 ^ (top + 1) / 2 ^ low * 2 ^ low) : Rat) / 2 ^ frac

/-- `n` is the rational `q` rounded toward zero. -/
def IsTrunc (q : Rat) (n : Int) : Prop :=
  (0 ≤ q → (n : Rat) ≤ q ∧ q < n + 1) ∧ (q ≤ 0 → q ≤ n ∧ (n : Rat) - 1 < q)

/-- What LAYER.INIT answers for the background layer of index `n` (R105 to R119), read from the registers at the positions of R18
to R24; the fields whose positions differ by layer are the other arguments. -/
def InitAnswers (s : State) (l : Bg) (n chsz chcn bmsz bmp scx scy : Nat) (bitmap : Bool) : Prop :=
  let b := regBits s.reg
  let half := fun off => off + 2 * (n / 2)
  (5 ≤ chcn → exec (.layerInit l) s = .refused .reservedDepth)
    ∧ (chcn ≤ 4 → ∃ g, Answers s (.layerInit l) (.layerCfg g)
      ∧ g.layer = l ∧ depthNumber g.depth = chcn ∧ g.bitmap = bitmap ∧ g.scrollX = scx ∧ g.scrollY = scy
      ∧ (g.enabled = true ↔ b 0x020 n 1 = 1) ∧ (g.transparencyEnable = true ↔ b 0x020 (8 + n) 1 = 0)
      ∧ g.patternWH = 1 + chsz ∧ g.pageWH = 64 / (1 + chsz)
      ∧ g.patternDataSize = 2 - b (0x030 + 2 * n) 15 1 ∧ g.auxMode = b (0x030 + 2 * n) 14 1
      ∧ g.supp.toNat = b (0x030 + 2 * n) 0 10
      ∧ (g.planeW, g.planeH) = [(1, 1), (2, 1), (1, 1), (2, 2)].getD (b 0x03A (2 * n) 2) (0, 0)
      ∧ g.mapWH = 2 * (1 + n / 4) ∧ g.mapOffset = b (0x03C + 2 * (n / 4)) (4 * (n % 4)) 3
      ∧ g.planeSel.length = g.mapWH * g.mapWH
      ∧ (∀ k, k < g.mapWH * g.mapWH → g.planeSel[k]? = some (b (0x040 + 4 * n + 2 * (k / 2)) (8 * (k % 2)) 8))
      ∧ (g.bmW, g.bmH) = [(512, 256), (512, 512), (1024, 256), (1024, 512)].getD bmsz (0, 0)
      ∧ g.bmBase = g.mapOffset * 0x20000 % 0x80000 ∧ g.bmPal.toNat = bmp * 16
      ∧ g.cramBankSel = b (0x0E4 + 2 * (n / 4)) (4 * (n % 4)) 3 ∧ g.priority = b (half 0x0F8) (8 * (n % 2)) 3 ∧ g.innerRank = n
      ∧ g.alpha.toNat = (if b 0x0EC n 1 = 0 then 255 else (31 - b (half 0x108) (8 * (n % 2)) 5) * 8)
      ∧ g.colorOffset =
          (if b 0x110 n 1 = 0 then { r := 0, g := 0, b := 0 }
          else
            let set := 0x114 + 6 * b 0x112 n 1
            { r := signed 9 (b set 0 9), g := signed 9 (b (set + 2) 0 9), b := signed 9 (b (set + 4) 0 9) })
      ∧ (g.charExt = true ↔ b 0x006 15 1 = 1)
      ∧ (n ≤ 3 → g.rot = none) ∧ (n = 4 → ∃ r, Answers s .rotLoad (.rotParams r) ∧ g.rot = some r))

/-- `l` is drawn before `m` (R190): the pairs (GET.PRI, INNER.PRI) compared lexicographically. -/
def Below (s : State) (l m : Layer) : Prop :=
  priorityOf s.config s.reg s.sprite l < priorityOf s.config s.reg s.sprite m
    ∨ (priorityOf s.config s.reg s.sprite l = priorityOf s.config s.reg s.sprite m ∧ innerRankOf s.config l < innerRankOf s.config m)

/-- A draw order (R190): each layer with priority not 0 and enabled, once, each below the next. -/
def IsDrawOrder (s : State) (ls : List Layer) : Prop :=
  ls.Nodup
    ∧ (∀ l, l ∈ ls ↔ priorityOf s.config s.reg s.sprite l ≠ 0 ∧ layerEnabled s.config s.reg s.sprite l = true)
    ∧ ls.Pairwise (Below s)

/-- What a layer shows at a position (R197): a background layer's LAYER.PIXEL with the colour offset folded in by COLOFS, and the
sprite layer's pixel as the SPRITE port answers it. -/
def Shows (s : State) (l : Layer) (x y : Nat) (q : Option Pixel) : Prop :=
  match l with
  | .sprite => q = s.sprite.pixels.lookup (x, y)
  | .bg b =>
    ∃ g, Answers s (.layerInit b) (.layerCfg g)
      ∧ ((q = none ∧ Answers s (.layerPixel g x y) (.fetched none))
        ∨ ∃ p p', Answers s (.layerPixel g x y) (.fetched (some p))
          ∧ Answers s (.colofs p g.colorOffset.r g.colorOffset.g g.colorOffset.b) (.pixel p') ∧ q = some p')

/-- The result of one channel of COLOFS (R194). -/
def Saturated (c : Byte) (offset : Int) (r : Byte) : Prop :=
  (r.toNat : Int) = max 0 (min 255 (c.toNat + offset))

/-- The operation answers the register value, a number, that a rule gives it for a layer index; the index out of range faults. -/
def AnswersPriority (s : State) (index value : Nat) : Prop :=
  Answers s (.getPri index) (.priority value) ∧ value ≤ 7 ∧ Answers s (.innerPri index) (.rank index)

/-- A pattern name decoded (R133 to R137), field by field as numbers. -/
def IsPattern (info : PatInfo) (charNo palAddr flipV flipH special : Nat) : Prop :=
  info.charNo.toNat = charNo ∧ info.palAddr.toNat = palAddr ∧ info.flipV.toNat = flipV ∧ info.flipH.toNat = flipH
    ∧ info.special.toNat = special

/-- The palette address of a one-word pattern name (R67). -/
def oneWordPalette (pn s : Nat) (d : Depth) : Nat :=
  match d with
  | .d0 => pn / 4096 + s / 32 % 8 * 16
  | .d1 | .d2 | .d3 | .d4 => pn / 4096 % 8 * 16

/-- The three status flags, as numbers. -/
def hblank (s : State) : Nat := fld s.reg s.config.regmap.hblank

/-- VBLANK. -/
def vblank (s : State) : Nat := fld s.reg s.config.regmap.vblank

/-- ODD. -/
def odd (s : State) : Nat := fld s.reg s.config.regmap.odd

/-- The status register is not the one a register write of this operation stores to. -/
def notStatusWrite : Instr → Prop
  | .regwr off _ => off ≠ 0x004#24
  | _ => True

/-- The two halves of colour memory are equal. -/
def HalvesEqual (s : State) : Prop :=
  ∀ a, a < 0x800 → readByte .cram s.cram 0x1000 (a + 0x800) = readByte .cram s.cram 0x1000 a

end Sys2Proof.Claims

open Sys2Proof.Claims

/-! ## Reset, the invariant, the step -/

/-- R30: the register bank after reset and what the default register map derives from it, whatever the memories and the surface
hold (R31). -/
def Obligations.ResetRegistersAndDerivedValues : Prop :=
  ∀ (vram cram : Memory) (px : Pixels), let s := launch vram cram px
    (∀ off, regGet s.reg off = 0#16) ∧ fld s.reg s.config.regmap.disp = 0 ∧ hblank s = 0 ∧ vblank s = 0 ∧ odd s = 0
      ∧ cramModeOf s.config s.reg = .legacy ∧ resolution s.config s.reg = (320, 224)
      ∧ ∀ l, ∃ g, Answers s (.layerInit l) (.layerCfg g) ∧ g.enabled = false ∧ g.priority = 0 ∧ g.transparencyEnable = true
        ∧ g.colorOffset = { r := 0, g := 0, b := 0 } ∧ g.alpha = 0xFF#8 ∧ g.charExt = false ∧ g.patternDataSize = 2
        ∧ (g.planeW, g.planeH) = (1, 1) ∧ (g.scrollX, g.scrollY) = (0, 0) ∧ g.bitmap = false ∧ g.depth = .d0
        ∧ g.patternWH = 1 ∧ g.pageWH = 64

/-- The invariant holds in every launch state whose memories are in canonical form and inside their spaces, and in the model's own
reset state (log entries 1, 4, 5: the invariant is the model's). -/
def Obligations.InvariantHoldsAtLaunch : Prop :=
  (∀ (vram cram : Memory) (px : Pixels), vram.wf → vram.within 0x80000 → cram.wf → cram.within 0x1000 →
      Surface.wf { w := 320, h := 224, px := px } → Inv (launch vram cram px))
    ∧ Inv State.reset

/-- The invariant is kept by every operation that ends normally, and so by every step: the memories stay in canonical form and
inside their spaces, and the surface has the size that the registers decode to (R29, R50). -/
def Obligations.EveryStepKeepsTheInvariant : Prop :=
  (∀ (i : Instr) (s t : State), Inv s → exec i s = .next t → Inv t) ∧ (∀ s t : State, Inv s → step s = .next t → Inv t)

/-- The step runs the operation of the event at the head of the inbox in the state that has taken it, faults on words that are no
event, and does nothing with an empty inbox (R223, R226; log entries 2, 19). -/
def Obligations.StepRunsTheDecodedEvent : Prop :=
  (∀ (s : State) (inp : Input) (rest : List Input) (i : Instr), s.inbox = inp :: rest → decode inp.w0 inp.w1 = .ok i →
      step s = exec i { s with inbox := rest, sprite := inp.sprite })
    ∧ (∀ (s : State) (inp : Input) (rest : List Input) (e : DecodeError), s.inbox = inp :: rest →
      decode inp.w0 inp.w1 = .error e → step s = .fault (.badEvent inp.w0))
    ∧ (∀ s : State, s.inbox = [] → step s = .next s)
    ∧ (∀ (s : State) (nbits w : Nat) (i : Instr), decodeTableWord nbits w = some i → step (s.withFetchWord nbits w) = exec i s)

/-! ## Encodings -/

/-- Decoding the encoding of a well-formed event gives the event back, at every value of every operand (R60). -/
def Obligations.DecodeOfEncodeIsTheEvent : Prop :=
  ∀ (i : Instr) (w0 w1 : Word32), i.wf = true → encode i = some (w0, w1) → decode w0 w1 = .ok i

/-- What the decoder accepts is a well-formed event whose encoding has the same header and, of the data word, the bits that the
event carries (log entry 9: the model ignores the others). -/
def Obligations.EncodeOfDecodeIsTheHeader : Prop :=
  ∀ (w0 w1 : Word32) (i : Instr), decode w0 w1 = .ok i →
    i.wf = true ∧ ∃ v, encode i = some (w0, v) ∧ v.toNat = w1.toNat % 2 ^ dataBits i

/-- The decoder accepts exactly the headers that R60 allows (R75, R222 cause 4). -/
def Obligations.DecoderAcceptsExactlyTheEventHeaders : Prop :=
  ∀ w0 w1 : Word32,
    let cls := w0.toNat / 2 ^ 28
    let size := w0.toNat / 2 ^ 26 % 4
    let bit25 := w0.toNat / 2 ^ 25 % 2
    let bit24 := w0.toNat / 2 ^ 24 % 2
    let addr := w0.toNat % 2 ^ 24
    (∃ i, decode w0 w1 = .ok i) ↔
      bit25 = 0 ∧ ((cls ≤ 1 ∧ size = 1 ∧ bit24 = 0) ∨ (2 ≤ cls ∧ cls ≤ 5 ∧ size ≤ 2 ∧ bit24 = 0)
        ∨ ((cls = 8 ∨ cls = 9 ∨ cls = 11) ∧ size = 0 ∧ bit24 = 0 ∧ addr = 0) ∨ (cls = 10 ∧ size = 0 ∧ addr = 0))

/-- Words written out from R60 decode to the events they stand for, one or more of each family, and some words are no event. -/
def Obligations.EventWordsDecode : Prop :=
  decode 0x04000030#32 0x00008000#32 = .ok (.regwr 0x030#24 0x8000#16)
    ∧ decode 0x04000000#32 0x00008000#32 = .ok (.regwrRes 0x8000#16)
    ∧ decode 0x0400000E#32 0x00001000#32 = .ok (.regwrRammode 0x1000#16)
    ∧ decode 0x040000F8#32 0x00000503#32 = .ok (.regwrPri0F8 0x0503#16)
    ∧ decode 0x14000004#32 0#32 = .ok (.regrd 0x004#24)
    ∧ decode 0x20000001#32 0x34#32 = .ok (.vramwrB 0x000001#24 0x34#8)
    ∧ decode 0x24002000#32 0x1001#32 = .ok (.vramwrW 0x002000#24 0x1001#16)
    ∧ decode 0x38000100#32 0#32 = .ok (.vramrdL 0x000100#24)
    ∧ decode 0x44000022#32 0x7C00#32 = .ok (.cramwrW 0x000022#24 0x7C00#16)
    ∧ decode 0x50000802#32 0#32 = .ok (.cramrdB 0x000802#24)
    ∧ decode 0xA1000000#32 0#32 = .ok (.vbin true) ∧ decode 0xB0000000#32 0#32 = .ok .vbout
    ∧ decode 0x2C000000#32 0#32 = .error .illegalSize ∧ decode 0x60000000#32 0#32 = .error .undefinedClass
    ∧ decode 0x82000000#32 0#32 = .error .reservedBits

/-- Splitting a datum into its fields and packing the fields agree in both directions, for every data format: a packed record
splits into itself, and a split datum packs into the datum without its ignored bits (R62 to R65, R69, R71, R61). The record of
FMT.PIX.D4 names bit 15 of its first word twice, in `o` and in `w1`; it splits into itself where the two agree. -/
def Obligations.FormatsSplitAndPackAgree : Prop :=
  (∀ f, pn1A0OfWord (wordOfPn1A0 f) = f) ∧ (∀ w, wordOfPn1A0 (pn1A0OfWord w) = w)
    ∧ (∀ f, pn1A1OfWord (wordOfPn1A1 f) = f) ∧ (∀ w, wordOfPn1A1 (pn1A1OfWord w) = w)
    ∧ (∀ f, pn2OfWord (wordOfPn2 f) = f) ∧ (∀ w, wordOfPn2 (pn2OfWord w) = w &&& 0xF07F7FFF#32)
    ∧ (∀ f, suppOfBits (bitsOfSupp f) = f) ∧ (∀ w, bitsOfSupp (suppOfBits w) = w)
    ∧ (∀ f, pixD0OfWord (wordOfPixD0 f) = f) ∧ (∀ w, wordOfPixD0 (pixD0OfWord w) = w)
    ∧ (∀ f, pixD1OfWord (wordOfPixD1 f) = f) ∧ (∀ w, wordOfPixD1 (pixD1OfWord w) = w)
    ∧ (∀ f, pixD2OfWord (wordOfPixD2 f) = f) ∧ (∀ w, wordOfPixD2 (pixD2OfWord w) = w &&& 0x07FF#16)
    ∧ (∀ f, pixD3OfWord (wordOfPixD3 f) = f) ∧ (∀ w, wordOfPixD3 (pixD3OfWord w) = w)
    ∧ (∀ f : FmtPixD4, f.o = f.w1.getLsbD 15 → pixD4OfWord (wordOfPixD4 f) = f) ∧ (∀ w, wordOfPixD4 (pixD4OfWord w) = w)
    ∧ (∀ f, color1OfWord (wordOfColor1 f) = f) ∧ (∀ w, wordOfColor1 (color1OfWord w) = w &&& 0x7FFF#16)
    ∧ (∀ f, colofsOfWord (wordOfColofs f) = f) ∧ (∀ w, wordOfColofs (colofsOfWord w) = w &&& 0x01FF#16)

/-- The pattern names, the supplement data, the pixel words, the single-word colour and the colour-offset value, split by their
operations (R62 to R65, R69, R71, R61). That a data format is an operation that answers its fields is the model's choice, log
entry 10. -/
def Obligations.FormatOperationsAnswerTheirFields : Prop :=
  ∀ (s : State) (w : Word16) (l : Word32) (d : BitVec 10),
    (∃ f, Answers s (.fmtPn1A0 w) (.pn1A0 f) ∧ f.p.toNat = w.toNat / 4096 ∧ f.v.toNat = w.toNat / 2048 % 2
      ∧ f.h.toNat = w.toNat / 1024 % 2 ∧ f.c.toNat = w.toNat % 1024)
    ∧ (∃ f, Answers s (.fmtPn1A1 w) (.pn1A1 f) ∧ f.p.toNat = w.toNat / 4096 ∧ f.c.toNat = w.toNat % 4096)
    ∧ (∃ f, Answers s (.fmtPn2 l) (.pn2 f) ∧ f.v.toNat = l.toNat / 2 ^ 31 ∧ f.h.toNat = l.toNat / 2 ^ 30 % 2
      ∧ f.s.toNat = l.toNat / 2 ^ 28 % 4 ∧ f.p.toNat = l.toNat / 2 ^ 16 % 128 ∧ f.c.toNat = l.toNat % 2 ^ 15)
    ∧ (∃ f, Answers s (.fmtSupp d) (.supp f) ∧ f.s.toNat = d.toNat / 256 ∧ f.p.toNat = d.toNat / 32 % 8
      ∧ f.c.toNat = d.toNat % 32)
    ∧ (∃ f, Answers s (.fmtPixD0 w) (.pixD0 f) ∧ f.a.toNat = w.toNat / 4096 ∧ f.b.toNat = w.toNat / 256 % 16
      ∧ f.c.toNat = w.toNat / 16 % 16 ∧ f.d.toNat = w.toNat % 16)
    ∧ (∃ f, Answers s (.fmtPixD1 w) (.pixD1 f) ∧ f.a.toNat = w.toNat / 256 ∧ f.b.toNat = w.toNat % 256)
    ∧ (∃ f, Answers s (.fmtPixD2 w) (.pixD2 f) ∧ f.i.toNat = w.toNat % 2048)
    ∧ (∃ f, Answers s (.fmtPixD3 w) (.pixD3 f) ∧ f.o.toNat = w.toNat / 2 ^ 15 ∧ f.b.toNat = w.toNat / 1024 % 32
      ∧ f.g.toNat = w.toNat / 32 % 32 ∧ f.r.toNat = w.toNat % 32)
    ∧ (∃ f, Answers s (.fmtPixD4 l) (.pixD4 f) ∧ f.o.toNat = l.toNat / 2 ^ 31 ∧ f.w1.toNat = l.toNat / 2 ^ 16
      ∧ f.w2.toNat = l.toNat % 2 ^ 16)
    ∧ (∃ f, Answers s (.fmtColor1 w) (.color1 f) ∧ f.b.toNat = w.toNat / 1024 % 32 ∧ f.g.toNat = w.toNat / 32 % 32
      ∧ f.r.toNat = w.toNat % 32)
    ∧ Answers s (.fmtColofs w) (.colofs (signed 9 w.toNat))

/-! ## The register bank -/

/-- R80: a register write, at any offset and in every form, stores the value and leaves every other register, both memories and
the logs as they are; an odd or out-of-range offset faults. At offset 0x000 the surface may be resized (the statement about
REGWR.RES); at every other offset it is as it was. -/
def Obligations.RegisterWriteStoresOneRegister : Prop :=
  ∀ (s : State) (off : BitVec 24) (val : Word16) (i : Instr), i = regwrForm off val ∨ i = .regwr off val →
    (off.toNat % 2 = 0 ∧ off.toNat ≤ 0x1FE → ∃ t, exec i s = .next t ∧ regGet t.reg off.toNat = val
      ∧ (∀ o, o % 2 = 0 → o ≤ 0x1FE → o ≠ off.toNat → regGet t.reg o = regGet s.reg o)
      ∧ t = { s with reg := t.reg, surface := t.surface, unspecSeq := t.unspecSeq }
      ∧ (off ≠ 0x000#24 → t.surface = s.surface ∧ t.unspecSeq = s.unspecSeq))
    ∧ (¬(off.toNat % 2 = 0 ∧ off.toNat ≤ 0x1FE) → exec i s = .fault (.badRegOffset off.toNat))

/-- R81, R46: a register read answers the latest value written to that register, by whatever form, or the value held before; an
odd or out-of-range offset faults. -/
def Obligations.RegisterReadAnswersTheLatestWrite : Prop :=
  (∀ (s : State) (off : BitVec 24) (val : Word16), off.toNat % 2 = 0 → off.toNat ≤ 0x1FE →
      ∃ t, exec (regwrForm off val) s = .next t
        ∧ ∀ o : BitVec 24, o.toNat % 2 = 0 → o.toNat ≤ 0x1FE →
          Answers t (.regrd o) (.word (if o = off then val else regGet s.reg o.toNat)))
    ∧ (∀ (s : State) (o : BitVec 24), o.toNat % 2 = 0 → o.toNat ≤ 0x1FE → Answers s (.regrd o) (.word (regGet s.reg o.toNat)))
    ∧ (∀ (s : State) (o : BitVec 24), ¬(o.toNat % 2 = 0 ∧ o.toNat ≤ 0x1FE) → exec (.regrd o) s = .fault (.badRegOffset o.toNat))

/-- R82, R253: writing the same value twice is writing it once, side effects included, and writes of two different registers may
change places. -/
def Obligations.RegisterWritesAreIdempotentAndCommute : Prop :=
  (∀ (s : State) (off : BitVec 24) (val : Word16), off.toNat % 2 = 0 → off.toNat ≤ 0x1FE →
      ∃ t, exec (regwrForm off val) s = .next t ∧ exec (regwrForm off val) t = .next t)
    ∧ (∀ (s : State) (o p : BitVec 24) (v w : Word16), s.config.wf = true → o ≠ p →
      o.toNat % 2 = 0 → o.toNat ≤ 0x1FE → p.toNat % 2 = 0 → p.toNat ≤ 0x1FE →
      ∃ t, execAll [regwrForm o v, regwrForm p w] s = .next t ∧ execAll [regwrForm p w, regwrForm o v] s = .next t)

/-- R83 with the default decode of R84: the store at 0x000, and the surface takes the decoded size with unspecified pixels exactly
when that size is not the one it has (log entry 5: the pixels are the next free surface). -/
def Obligations.ResolutionWriteResizesTheSurface : Prop :=
  ∀ (s : State) (val : Word16), s.config = Config.default →
    let w := [320, 352, 640, 704].getD (val.toNat % 4) 0
    let h0 := [224, 240, 256, 256].getD (val.toNat / 16 % 4) 0
    let h := if val.toNat / 64 % 4 = 3 then 2 * h0 else h0
    ∃ t, exec (.regwrRes val) s = .next t ∧ regGet t.reg 0x000 = val
      ∧ (∀ o, o % 2 = 0 → 0 < o → o ≤ 0x1FE → regGet t.reg o = regGet s.reg o)
      ∧ resolution t.config t.reg = (w, h)
      ∧ ((w, h) = (s.surface.w, s.surface.h) → t = { s with reg := t.reg })
      ∧ ((w, h) ≠ (s.surface.w, s.surface.h) → t = { s with
          reg := t.reg, surface := { w := w, h := h, px := .unspecified s.unspecSeq }, unspecSeq := s.unspecSeq + 1 })

/-- R85, R91 with the default P_CRAM_MODE: the mode is the one that bits 13:12 of 0x00E select, it changes with the store, and
the store touches neither colour memory nor the surface. -/
def Obligations.RamModeWriteSelectsTheMode : Prop :=
  ∀ (s : State) (val : Word16), s.config = Config.default →
    let modeAt := fun n => [CramMode.legacy, CramMode.wide, CramMode.extended, CramMode.extended].getD n .legacy
    Answers s .cramMode (.mode (modeAt (regBits s.reg 0x00E 12 2))) ∧ ∃ t, exec (.regwrRammode val) s = .next t ∧ t = { s with reg := t.reg }
      ∧ (∀ o, o % 2 = 0 → o ≤ 0x1FE → o ≠ 0x00E → regGet t.reg o = regGet s.reg o) ∧ regGet t.reg 0x00E = val
      ∧ Answers t .cramMode (.mode (modeAt (val.toNat / 4096 % 4)))

/-- R86, R188 with the default register map: a write of a priority register stores the value there and does nothing else, and
GET.PRI of its layers answers the fields written. -/
def Obligations.PriorityWritesAreReadByGetPri : Prop :=
  ∀ (s : State) (val : Word16), s.config = Config.default →
    (∃ t, exec (.regwrPri0F8 val) s = .next t ∧ t = { s with reg := t.reg }
      ∧ (∀ o, o % 2 = 0 → o ≤ 0x1FE → o ≠ 0x0F8 → regGet t.reg o = regGet s.reg o) ∧ regGet t.reg 0x0F8 = val
      ∧ Answers t (.getPri 0) (.priority (val.toNat % 8)) ∧ Answers t (.getPri 1) (.priority (val.toNat / 256 % 8)))
    ∧ (∃ t, exec (.regwrPri0FA val) s = .next t ∧ t = { s with reg := t.reg }
      ∧ (∀ o, o % 2 = 0 → o ≤ 0x1FE → o ≠ 0x0FA → regGet t.reg o = regGet s.reg o) ∧ regGet t.reg 0x0FA = val
      ∧ Answers t (.getPri 2) (.priority (val.toNat % 8)) ∧ Answers t (.getPri 3) (.priority (val.toNat / 256 % 8)))
    ∧ (∃ t, exec (.regwrPri0FC val) s = .next t ∧ t = { s with reg := t.reg }
      ∧ (∀ o, o % 2 = 0 → o ≤ 0x1FE → o ≠ 0x0FC → regGet t.reg o = regGet s.reg o) ∧ regGet t.reg 0x0FC = val
      ∧ Answers t (.getPri 4) (.priority (val.toNat % 8)))

/-! ## The memories -/

/-- R87: a host write of 1, 2 or 4 bytes to video memory stores them big-endian and changes nothing else; a misaligned one, or one
that runs past the end, faults. -/
def Obligations.VideoMemoryWriteStoresBigEndian : Prop :=
  ∀ (s : State) (addr : BitVec 24), Inv s →
    (∀ val : Byte, VideoMemoryWrite s (.vramwrB addr val) addr.toNat 1 val.toNat)
      ∧ (∀ val : Word16, VideoMemoryWrite s (.vramwrW addr val) addr.toNat 2 val.toNat)
      ∧ (∀ val : Word32, VideoMemoryWrite s (.vramwrL addr val) addr.toNat 4 val.toNat)

/-- R88: a host read of 1, 2 or 4 bytes of video memory answers them as a big-endian number and changes nothing. -/
def Obligations.VideoMemoryReadAnswersBigEndian : Prop :=
  ∀ (s : State) (addr : BitVec 24), let size := s.config.vramBytes
    (addr.toNat + 1 ≤ size → ∃ v, Answers s (.vramrdB addr) (.byte v) ∧ v.toNat = bigEndian .vram s.vram size addr.toNat 1)
      ∧ (addr.toNat % 2 = 0 → addr.toNat + 2 ≤ size →
        ∃ v, Answers s (.vramrdW addr) (.word v) ∧ v.toNat = bigEndian .vram s.vram size addr.toNat 2)
      ∧ (addr.toNat % 4 = 0 → addr.toNat + 4 ≤ size →
        ∃ v, Answers s (.vramrdL addr) (.long v) ∧ v.toNat = bigEndian .vram s.vram size addr.toNat 4)
      ∧ (size < addr.toNat + 1 → exec (.vramrdB addr) s = .fault (.badMemAccess .vram addr.toNat 1))
      ∧ (¬(addr.toNat % 2 = 0 ∧ addr.toNat + 2 ≤ size) → exec (.vramrdW addr) s = .fault (.badMemAccess .vram addr.toNat 2))
      ∧ (¬(addr.toNat % 4 = 0 ∧ addr.toNat + 4 ≤ size) → exec (.vramrdL addr) s = .fault (.badMemAccess .vram addr.toNat 4))

/-- R41: the byte and long views of the registers, and mixed widths in video memory: a wide read sees the bytes that narrow writes
stored, and a narrow read the bytes of a wide write. -/
def Obligations.ViewsAndMixedWidthsAreBigEndian : Prop :=
  (∀ (reg : Bank) (off : Nat), off % 2 = 0 → off ≤ 0x1FE → (regByte reg off).toNat = (regGet reg off).toNat / 256
      ∧ (regByte reg (off + 1)).toNat = (regGet reg off).toNat % 256)
    ∧ (∀ (reg : Bank) (off : Nat), off % 2 = 0 → off ≤ 0x1FC →
      (regLong reg off).toNat = (regGet reg off).toNat * 65536 + (regGet reg (off + 2)).toNat)
    ∧ (∀ (s : State) (a : BitVec 24) (hi lo : Byte), Inv s → a.toNat % 2 = 0 → a.toNat + 2 ≤ s.config.vramBytes →
      ∃ t v, execAll [.vramwrB a hi, .vramwrB (a + 1) lo] s = .next t ∧ Answers t (.vramrdW a) (.word v)
        ∧ v.toNat = hi.toNat * 256 + lo.toNat)
    ∧ (∀ (s : State) (a : BitVec 24) (val : Word32), Inv s → a.toNat % 4 = 0 → a.toNat + 4 ≤ s.config.vramBytes →
      ∃ t v w, exec (.vramwrL a val) s = .next t ∧ Answers t (.vramrdW (a + 2)) (.word v) ∧ v.toNat = val.toNat % 65536
        ∧ Answers t (.vramrdB a) (.byte w) ∧ w.toNat = val.toNat / 2 ^ 24)

/-- R93: a host write to colour memory stores its bytes big-endian, in legacy mode also in the other half, and changes nothing
else; a misaligned one, or one that runs past the end, faults. -/
def Obligations.ColourMemoryWriteMirrorsInLegacyMode : Prop :=
  ∀ (s : State) (addr : BitVec 24), Inv s →
    (∀ val : Byte, ColourMemoryWrite s (.cramwrB addr val) addr.toNat 1 val.toNat)
      ∧ (∀ val : Word16, ColourMemoryWrite s (.cramwrW addr val) addr.toNat 2 val.toNat)
      ∧ (∀ val : Word32, ColourMemoryWrite s (.cramwrL addr val) addr.toNat 4 val.toNat)

/-- R94: a host read of colour memory answers the bytes as a big-endian number, in every mode, and changes nothing. -/
def Obligations.ColourMemoryReadAnswersBigEndian : Prop :=
  ∀ (s : State) (addr : BitVec 24),
    (addr.toNat + 1 ≤ 0x1000 → ∃ v, Answers s (.cramrdB addr) (.byte v) ∧ v.toNat = bigEndian .cram s.cram 0x1000 addr.toNat 1)
      ∧ (addr.toNat % 2 = 0 → addr.toNat + 2 ≤ 0x1000 →
        ∃ v, Answers s (.cramrdW addr) (.word v) ∧ v.toNat = bigEndian .cram s.cram 0x1000 addr.toNat 2)
      ∧ (addr.toNat % 4 = 0 → addr.toNat + 4 ≤ 0x1000 →
        ∃ v, Answers s (.cramrdL addr) (.long v) ∧ v.toNat = bigEndian .cram s.cram 0x1000 addr.toNat 4)
      ∧ (0x1000 < addr.toNat + 1 → exec (.cramrdB addr) s = .fault (.badMemAccess .cram addr.toNat 1))
      ∧ (¬(addr.toNat % 2 = 0 ∧ addr.toNat + 2 ≤ 0x1000) → exec (.cramrdW addr) s = .fault (.badMemAccess .cram addr.toNat 2))
      ∧ (¬(addr.toNat % 4 = 0 ∧ addr.toNat + 4 ≤ 0x1000) → exec (.cramrdL addr) s = .fault (.badMemAccess .cram addr.toNat 4))

/-- R247: while the mode is legacy, equal halves of colour memory stay equal under every operation. -/
def Obligations.LegacyHalvesStayEqual : Prop :=
  ∀ (i : Instr) (s t : State), Inv s → cramModeOf s.config s.reg = .legacy → HalvesEqual s → exec i s = .next t → HalvesEqual t

/-! ## The palette multiplexer -/

/-- R92, R98: EXPAND1 puts each 5-bit value in the top five bits of its channel; EXPAND2 answers one colour, which depends on its
two words only (log entry 6: the OPEN function P_EXPAND2). -/
def Obligations.ExpandOperationsAnswerTheColour : Prop :=
  (∀ (s : State) (w : Word16), ∃ c : Rgb, Answers s (.expand1 w) (.rgb c) ∧ c.r.toNat = w.toNat % 32 * 8
      ∧ c.g.toNat = w.toNat / 32 % 32 * 8 ∧ c.b.toNat = w.toNat / 1024 % 32 * 8)
    ∧ ∀ w1 w2 : Word16, ∃ c : Rgb, ∀ s : State, Answers s (.expand2 w1 w2) (.rgb c)

/-- R95 to R98 with the default bank size: RESOLVE reads one word of 1024 or 2048 slots in legacy and wide mode, and two words of
1024 slots in extended mode, which the OPEN function P_EXPAND2 takes (log entry 6); the alpha argument is unchanged. That each form computes its formula in
every state, whatever mode CRMD selects, is the model's choice, log entry 11; the bank size is log entry 20. -/
def Obligations.ResolveReadsItsSlot : Prop :=
  ∀ (s : State) (index bankSel : Nat) (alpha : Byte), s.config = Config.default → bankSel ≤ 7 →
    let word := fun a => bigEndian .cram s.cram 0x1000 a 2
    (∃ p, Answers s (.resolveLegacy index alpha bankSel) (.pixel p)
      ∧ IsColour p (word ((index * 2 + bankSel * 0x200) % 0x800)) alpha)
    ∧ (∃ p, Answers s (.resolveWide index alpha bankSel) (.pixel p)
      ∧ IsColour p (word ((index * 2 + bankSel * 0x200) % 0x1000)) alpha)
    ∧ (∃ (w1 w2 : Word16) (c : Rgb), w1.toNat = word ((index * 4 + bankSel * 0x200) % 0x1000)
      ∧ w2.toNat = word ((index * 4 + bankSel * 0x200) % 0x1000 + 2) ∧ Answers s (.expand2 w1 w2) (.rgb c)
      ∧ Answers s (.resolveExt index alpha bankSel) (.pixel { r := c.r, g := c.g, b := c.b, a := alpha }))

/-! ## Layer configuration -/

/-- R105 to R119 under the default register map: LAYER.INIT of every background layer, each field of its record read from the
registers at the positions of R18 to R24, and the refusal where CHCN is reserved. A field that a layer does not have (R20, R23)
is 0 in its record: the model's choice, log entry 22. That the refusal does not ask whether the layer is to be drawn is the
model's choice, log entry 26. -/
def Obligations.LayerInitDecodesTheRegisters : Prop :=
  ∀ s : State, s.config = Config.default → let b := regBits s.reg
    InitAnswers s .nbg0 0 (b 0x028 0 1) (b 0x028 4 3) (b 0x028 2 2) (b 0x02C 0 3) (b 0x070 0 11) (b 0x074 0 11)
        (b 0x028 1 1 == 1)
      ∧ InitAnswers s .nbg1 1 (b 0x028 8 1) (b 0x028 12 2) (b 0x028 10 2) (b 0x02C 8 3) (b 0x080 0 11) (b 0x084 0 11)
        (b 0x028 9 1 == 1)
      ∧ InitAnswers s .nbg2 2 (b 0x02A 0 1) (b 0x02A 1 1) 0 0 (b 0x090 0 11) (b 0x092 0 11) false
      ∧ InitAnswers s .nbg3 3 (b 0x02A 4 1) (b 0x02A 5 1) 0 0 (b 0x094 0 11) (b 0x096 0 11) false
      ∧ InitAnswers s .rbg0 4 (b 0x02A 8 1) (b 0x02A 12 3) (b 0x02A 10 1) (b 0x02E 0 3) 0 0 (b 0x02A 9 1 == 1)

/-- R25, R109, R224: under every well-formed configuration, LAYER.INIT answers a record whose fields are in the ranges of R25
exactly when the layer's CHCN is at most 4, and is refused otherwise, whether the layer is to be drawn or not (the model's
choice, log entry 26). -/
def Obligations.LayerRecordsAreInRange : Prop :=
  ∀ (s : State) (l : Bg), s.config.wf = true →
    (fld s.reg (layerFields s.config l).chcn ≤ 4 →
      ∃ g, Answers s (.layerInit l) (.layerCfg g) ∧ g.layer = l ∧ g.wf = true)
    ∧ (5 ≤ fld s.reg (layerFields s.config l).chcn → exec (.layerInit l) s = .refused .reservedDepth)

/-! ## Tile-map addressing -/

/-- R125: the scroll origin is added, and on a surface of the largest size the result is at most 2047 + 703. -/
def Obligations.ScrollCoordAddsTheOrigin : Prop :=
  ∀ (s : State) (cfg : LayerCfg) (sx sy : Nat), cfg.wf = true → sx < 704 → sy < 512 →
    ∃ x y : Nat, Answers s (.scrollCoord cfg sx sy) (.coord x y) ∧ x = sx + cfg.scrollX ∧ y = sy + cfg.scrollY
      ∧ x ≤ 2047 + 703 ∧ y ≤ 2047 + 511

/-- R127, R128: the plane base address, with the page size of the table. -/
def Obligations.PlaneAddrFollowsTheFormula : Prop :=
  ∀ (s : State) (cfg : LayerCfg) (k : Nat), cfg.wf = true → k < cfg.mapWH * cfg.mapWH →
    ∃ sel, cfg.planeSel[k]? = some sel ∧ Answers s (.planeAddr cfg k) (.address
      ((cfg.mapOffset * 64 + sel % 64) / 2 ^ (cfg.planeW + cfg.planeH - 2) * (cfg.planeW * cfg.planeH) * pageSize cfg
        % s.config.vramBytes))

/-- R131: the address of a pattern name and the in-pattern coordinate; the address is even where the page's is and video memory has
an even size, and the last name of a page is its last `patternDataSize` words. -/
def Obligations.PatternNameAddressIsRowMajor : Prop :=
  ∀ (s : State) (cfg : LayerCfg) (pageAddr xg yg : Nat), cfg.wf = true → xg < 512 → yg < 512 →
    let side := 8 * cfg.patternWH
    let a := (pageAddr + (yg / side * (64 / cfg.patternWH) + xg / side) * cfg.patternDataSize * 2) % s.config.vramBytes
    Answers s (.pnAddr cfg pageAddr xg yg) (.patternName a (xg % side) (yg % side))
      ∧ (pageAddr % 2 = 0 → s.config.vramBytes % 2 = 0 → a % 2 = 0)
      ∧ (xg = 511 → yg = 511 → a = (pageAddr + pageSize cfg - cfg.patternDataSize * 2) % s.config.vramBytes)

/-- R133 to R137: the four one-word pattern-name decodes and the two-word one, for every pattern name, supplement and depth. -/
def Obligations.PatternNamesDecode : Prop :=
  ∀ (s : State) (w w2 : Word16) (supp : BitVec 10) (d : Depth), let p := w.toNat; let e := supp.toNat
    (∃ i, Answers s (.pnDec1wA0W1 w supp d) (.pattern i)
      ∧ IsPattern i (p % 1024 + e % 32 * 1024) (oneWordPalette p e d) (p / 2048 % 2) (p / 1024 % 2) (e / 256))
    ∧ (∃ i, Answers s (.pnDec1wA0W2 w supp d) (.pattern i)
      ∧ IsPattern i (p % 1024 * 4 + e % 4 + e / 4 % 8 * 4096) (oneWordPalette p e d) (p / 2048 % 2) (p / 1024 % 2) (e / 256))
    ∧ (∃ i, Answers s (.pnDec1wA1W1 w supp d) (.pattern i)
      ∧ IsPattern i (p % 4096 + e % 8 * 4096) (oneWordPalette p e d) 0 0 (e / 256))
    ∧ (∃ i, Answers s (.pnDec1wA1W2 w supp d) (.pattern i)
      ∧ IsPattern i (p % 4096 * 4 + e % 4 + e / 16 % 2 * 16384) (oneWordPalette p e d) 0 0 (e / 256))
    ∧ (∃ i, Answers s (.pnDec2w w w2) (.pattern i)
      ∧ IsPattern i (w2.toNat % 32768) (p % 128) (p / 32768) (p / 16384 % 2) (p / 4096 % 4))

/-- R141: the character number, masked to 14 bits unless extended addressing is on, times 32. -/
def Obligations.CharFinMasksThenScales : Prop :=
  ∀ (s : State) (cfg : LayerCfg) (charNo : BitVec 15), ∃ a, Answers s (.charFin cfg charNo) (.address a)
    ∧ a = (if cfg.charExt = true then charNo.toNat else charNo.toNat % 2 ^ 14) * 32 ∧ a ≤ 0xFFFE0

/-- R143: TILE.PIXEL is the walk of its rule: wrap, map index, page, pattern name, decode, character address, flip, fetch; each
address and decode is what the operation of its own rule answers. A reserved pattern-name form is refused (R138). -/
def Obligations.TilePixelIsTheWalk : Prop :=
  ∀ (s : State) (cfg : LayerCfg) (x y : Int), cfg.wf = true → cfg.bitmap = false →
    let planeW := cfg.planeW * 512
    let planeH := cfg.planeH * 512
    let xw := (x % ((cfg.mapWH * planeW : Nat) : Int)).toNat
    let yw := (y % ((cfg.mapWH * planeH : Nat) : Int)).toNat
    ∃ base name px0 py0, Answers s (.planeAddr cfg (yw / planeH * cfg.mapWH + xw / planeW)) (.address base)
      ∧ Answers s (.pnAddr cfg (base + (yw % planeH / 512 * cfg.planeW + xw % planeW / 512) * pageSize cfg) (xw % 512) (yw % 512))
          (.patternName name px0 py0)
      ∧ (nameOp s cfg name = none → exec (.tilePixel cfg x y) s = .refused .reservedAuxMode)
      ∧ (∀ op, nameOp s cfg name = some op → ∃ info char, Answers s op (.pattern info)
        ∧ Answers s (.charFin cfg info.charNo) (.address char)
        ∧ exec (.tilePixel cfg x y) s = exec (fetchOp cfg char info.palAddr
            (if info.flipH then 8 * cfg.patternWH - 1 - px0 else px0) (if info.flipV then 8 * cfg.patternWH - 1 - py0 else py0)) s)

/-- R126, R163: the map and the bitmap repeat in both directions. -/
def Obligations.MapsAndBitmapsRepeat : Prop :=
  (∀ (s : State) (cfg : LayerCfg) (x y m n : Int), cfg.wf = true →
      exec (.tilePixel cfg (x + m * (cfg.mapWH * cfg.planeW * 512 : Nat)) (y + n * (cfg.mapWH * cfg.planeH * 512 : Nat))) s
        = exec (.tilePixel cfg x y) s)
    ∧ (∀ (s : State) (cfg : LayerCfg) (x y m n : Int),
      exec (.bitmapPixel cfg (x + m * cfg.bmW) (y + n * cfg.bmH)) s = exec (.bitmapPixel cfg x y) s)

/-! ## Pixel fetch -/

/-- R156, R157, R158 with the addresses of R151: the three palette depths. That each form fetches at its own depth, whatever depth
the record holds, is the model's choice, log entry 11. -/
def Obligations.PalettePixelsAreFetched : Prop :=
  ∀ (s : State) (cfg : LayerCfg) (base px py : Nat) (pal : BitVec 7), cfg.wf = true →
    px < 8 * cfg.patternWH → py < 8 * cfg.patternWH →
    let word := fun a => bigEndian .vram s.vram s.config.vramBytes a 2
    let cx := px % 8
    let cy := py % 8
    (let dot := word (cellAddr cfg base 32 px py + cy * 4 + cx / 4 * 2) / 16 ^ (3 - cx % 4) % 16;
      PalettePixel s cfg dot (pal.toNat * 16 + dot) (.pixFetchD0 cfg base pal px py))
    ∧ (let dot := word (cellAddr cfg base 64 px py + cy * 8 + cx / 2 * 2) / 256 ^ (1 - cx % 2) % 256;
      PalettePixel s cfg dot (pal.toNat / 16 * 256 + dot) (.pixFetchD1 cfg base pal px py))
    ∧ (let dot := word (cellAddr cfg base 128 px py + (cy * 8 + cx) * 2) % 2048;
      PalettePixel s cfg dot dot (.pixFetchD2 cfg base pal px py))

/-- R159, R160 with the addresses of R151: the two direct depths; bit 15 of the (first) word is the opacity flag, and colour memory
is not read. That each form fetches at its own depth, whatever depth the record holds, is the model's choice, log entry 11. -/
def Obligations.DirectPixelsAreFetched : Prop :=
  ∀ (s : State) (cfg : LayerCfg) (base px py : Nat) (pal : BitVec 7), cfg.wf = true →
    px < 8 * cfg.patternWH → py < 8 * cfg.patternWH →
    let word := fun a => bigEndian .vram s.vram s.config.vramBytes a 2
    let n := py % 8 * 8 + px % 8
    (let w := word (cellAddr cfg base 128 px py + n * 2);
      (cfg.transparencyEnable = true ∧ w / 2 ^ 15 = 0 → Answers s (.pixFetchD3 cfg base pal px py) (.fetched none))
      ∧ (¬(cfg.transparencyEnable = true ∧ w / 2 ^ 15 = 0) →
        ∃ p, Answers s (.pixFetchD3 cfg base pal px py) (.fetched (some p)) ∧ IsColour p w cfg.alpha))
    ∧ (let a := cellAddr cfg base 256 px py + n * 4;
      (cfg.transparencyEnable = true ∧ word a / 2 ^ 15 = 0 → Answers s (.pixFetchD4 cfg base pal px py) (.fetched none))
      ∧ (¬(cfg.transparencyEnable = true ∧ word a / 2 ^ 15 = 0) →
        ∃ (w1 w2 : Word16) (c : Rgb), w1.toNat = word a ∧ w2.toNat = word (a + 2) ∧ Answers s (.expand2 w1 w2) (.rgb c)
          ∧ Answers s (.pixFetchD4 cfg base pal px py)
              (.fetched (some { r := c.r, g := c.g, b := c.b, a := cfg.alpha }))))

/-- R163: BITMAP.PIXEL is the fetch, at the layer's depth and palette, of pixel number n of one row-major array; n wraps in both
directions. It always ends normally. -/
def Obligations.BitmapPixelIsRowMajor : Prop :=
  ∀ (s : State) (cfg : LayerCfg) (x y : Int), cfg.wf = true →
    let n := (y % (cfg.bmH : Int)).toNat * cfg.bmW + (x % (cfg.bmW : Int)).toNat
    let at_ := match cfg.depth with
      | .d0 => (n / 4 * 2, n % 4)
      | .d1 => (n / 2 * 2, n % 2)
      | .d2 => (n * 2, 0)
      | .d3 => (n * 2, 0)
      | .d4 => (n * 4, 0)
    exec (.bitmapPixel cfg x y) s = exec (fetchOp cfg (cfg.bmBase + at_.1) cfg.bmPal at_.2 0) s
      ∧ ∃ q, Answers s (.bitmapPixel cfg x y) (.fetched q)

/-- R164, R178: LAYER.PIXEL and ROT.PIXEL take the source coordinate from the layer's own generator and answer through the bitmap or
the tile map. -/
def Obligations.LayerPixelDispatches : Prop :=
  ∀ (s : State) (cfg : LayerCfg) (sx sy : Nat), cfg.wf = true →
    ∃ x y, (cfg.layer ≠ .rbg0 → Answers s (.scrollCoord cfg sx sy) (.coord x y))
      ∧ (cfg.layer = .rbg0 → ∃ r, cfg.rot = some r ∧ Answers s (.rotCoord r sx sy) (.coord x y))
      ∧ exec (.layerPixel cfg sx sy) s = exec (if cfg.bitmap then .bitmapPixel cfg x y else .tilePixel cfg x y) s
      ∧ exec (.rotPixel cfg sx sy) s = exec (.layerPixel cfg sx sy) s

/-- R138: TILE.PIXEL, LAYER.PIXEL and ROT.PIXEL answer a pixel unless one-word pattern names meet a reserved auxMode in tile mode;
then they are refused. -/
def Obligations.ReservedAuxModeIsRefused : Prop :=
  ∀ (s : State) (cfg : LayerCfg) (x y : Int) (sx sy : Nat), cfg.wf = true →
    (cfg.patternDataSize = 2 ∨ cfg.auxMode ≤ 1 → ∃ q, Answers s (.tilePixel cfg x y) (.fetched q))
      ∧ (cfg.patternDataSize = 1 ∧ 2 ≤ cfg.auxMode → exec (.tilePixel cfg x y) s = .refused .reservedAuxMode)
      ∧ (cfg.bitmap = true ∨ cfg.patternDataSize = 2 ∨ cfg.auxMode ≤ 1 →
        ∃ q, Answers s (.layerPixel cfg sx sy) (.fetched q) ∧ Answers s (.rotPixel cfg sx sy) (.fetched q))
      ∧ (cfg.bitmap = false ∧ cfg.patternDataSize = 1 ∧ 2 ≤ cfg.auxMode →
        exec (.layerPixel cfg sx sy) s = .refused .reservedAuxMode ∧ exec (.rotPixel cfg sx sy) s = .refused .reservedAuxMode)

/-! ## The rotation engine -/

/-- R171 under the default configuration: the table address, with bits 7, 1 and 0 cleared. -/
def Obligations.RotAddrClearsTheTableBits : Prop :=
  ∀ s : State, s.config = Config.default →
    let a := (regBits s.reg 0x0BC 0 16 * 65536 + regBits s.reg 0x0BE 0 16) * 2 % 0x80000
    Answers s .rotAddr (.address (a / 256 * 256 + a % 128 / 4 * 4))

/-- R172, R173 under the default P_ROT_LAYOUT: each of the 23 values is its entry of the table at ROT.ADDR. -/
def Obligations.RotLoadReadsTheTable : Prop :=
  ∀ s : State, s.config = Config.default →
    ∃ t r, Answers s .rotAddr (.address t) ∧ Answers s .rotLoad (.rotParams r)
      ∧ r.xst = tableEntry s t 0x00 4 28 6 16 ∧ r.yst = tableEntry s t 0x04 4 28 6 16 ∧ r.zst = tableEntry s t 0x08 4 28 6 16
      ∧ r.deltaXst = tableEntry s t 0x0C 4 18 6 16 ∧ r.deltaYst = tableEntry s t 0x10 4 18 6 16
      ∧ r.deltaX = tableEntry s t 0x14 4 18 6 16 ∧ r.deltaY = tableEntry s t 0x18 4 18 6 16
      ∧ r.matA = tableEntry s t 0x1C 4 19 6 16 ∧ r.matB = tableEntry s t 0x20 4 19 6 16 ∧ r.matC = tableEntry s t 0x24 4 19 6 16
      ∧ r.matD = tableEntry s t 0x28 4 19 6 16 ∧ r.matE = tableEntry s t 0x2C 4 19 6 16 ∧ r.matF = tableEntry s t 0x30 4 19 6 16
      ∧ r.px = tableEntry s t 0x34 2 13 0 0 ∧ r.py = tableEntry s t 0x36 2 13 0 0 ∧ r.pz = tableEntry s t 0x38 2 13 0 0
      ∧ r.cx = tableEntry s t 0x3C 2 13 0 0 ∧ r.cy = tableEntry s t 0x3E 2 13 0 0 ∧ r.cz = tableEntry s t 0x40 2 13 0 0
      ∧ r.mx = tableEntry s t 0x44 4 29 6 16 ∧ r.my = tableEntry s t 0x48 4 29 6 16
      ∧ r.kx = tableEntry s t 0x4C 4 23 0 16 ∧ r.ky = tableEntry s t 0x50 4 23 0 16

/-- R175: the source coordinate is the formula in exact rational arithmetic, each part rounded toward zero once. -/
def Obligations.RotCoordTruncatesTheExactFormula : Prop :=
  ∀ (s : State) (r : RotParams) (h v : Int), ∃ x y, Answers s (.rotCoord r h v) (.coord x y)
    ∧ (let xsp := r.matA * ((r.xst + r.deltaXst * v) - r.px) + r.matB * ((r.yst + r.deltaYst * v) - r.py) + r.matC * (r.zst - r.pz)
      let xp := r.matA * (r.px - r.cx) + r.matB * (r.py - r.cy) + r.matC * (r.pz - r.cz)
      let dx := r.matA * r.deltaX + r.matB * r.deltaY
      IsTrunc (r.kx * (xsp + dx * h) + xp) x)
    ∧ (let ysp := r.matD * ((r.xst + r.deltaXst * v) - r.px) + r.matE * ((r.yst + r.deltaYst * v) - r.py) + r.matF * (r.zst - r.pz)
      let yp := r.matD * (r.px - r.cx) + r.matE * (r.py - r.cy) + r.matF * (r.pz - r.cz)
      let dy := r.matD * r.deltaX + r.matE * r.deltaY
      IsTrunc (r.ky * (ysp + dy * h) + yp) y)

/-- R177: with the identity parameters the source coordinate is the screen position, whatever the translations Mx and My, which
enter no formula (R180). -/
def Obligations.RotIdentityIsTheScreenPosition : Prop :=
  ∀ (s : State) (r : RotParams) (h v : Int), r.matA = 1 → r.matE = 1 → r.matB = 0 → r.matC = 0 → r.matD = 0 → r.matF = 0 →
    r.kx = 1 → r.ky = 1 → r.deltaX = 1 → r.deltaY = 0 → r.deltaXst = 0 → r.deltaYst = 1 →
    r.xst = 0 → r.yst = 0 → r.zst = 0 → r.px = 0 → r.py = 0 → r.pz = 0 → r.cx = 0 → r.cy = 0 → r.cz = 0 →
    Answers s (.rotCoord r h v) (.coord h v)

/-! ## The compositor -/

/-- R188, R189, R185 under the default configuration: the priority, at the register positions of R24 (log entry 8), and the rank of
each of the six entries, and the fault of every operation that takes a layer index outside 0 to 5 (R222; which operations those
are is the model's reading, log entry 18). -/
def Obligations.PrioritiesAndRanksByIndex : Prop :=
  (∀ s : State, s.config = Config.default → let b := regBits s.reg
      AnswersPriority s 0 (b 0x0F8 0 3) ∧ AnswersPriority s 1 (b 0x0F8 8 3) ∧ AnswersPriority s 2 (b 0x0FA 0 3)
        ∧ AnswersPriority s 3 (b 0x0FA 8 3) ∧ AnswersPriority s 4 (b 0x0FC 0 3) ∧ AnswersPriority s 5 s.sprite.priority.toNat)
    ∧ (∀ (s : State) (index : Nat), 5 < index → exec (.getPri index) s = .fault (.badLayerIndex index)
      ∧ exec (.innerPri index) s = .fault (.badLayerIndex index) ∧ exec (.layerDraw index) s = .fault (.badLayerIndex index))

/-- R190: SORT answers the draw order, which is the only list that is one. -/
def Obligations.SortAnswersTheDrawOrder : Prop :=
  ∀ s : State, s.config.wf = true →
    ∃ ls, Answers s .sort (.order ls) ∧ IsDrawOrder s ls ∧ ∀ ls', IsDrawOrder s ls' → ls' = ls

/-- R194: each colour channel is the sum clamped to 0 .. 255, and the alpha channel is as it was. -/
def Obligations.ColofsSaturates : Prop :=
  ∀ (s : State) (p : Pixel) (cr cg cb : Int), ∃ q : Pixel, Answers s (.colofs p cr cg cb) (.pixel q)
    ∧ Saturated p.r cr q.r ∧ Saturated p.g cg q.g ∧ Saturated p.b cb q.b ∧ q.a = p.a

/-- R196: an opaque source covers (B1), and the result depends on the two pixels only (B2); the value for a source that is not
opaque is the OPEN function P_BLEND (log entry 7). -/
def Obligations.BlendCoversWhenOpaque : Prop :=
  ∀ dst src : Pixel, (∀ s : State, src.a = 0xFF#8 → Answers s (.blend dst src) (.pixel src))
    ∧ ∃ p, ∀ s : State, Answers s (.blend dst src) (.pixel p)

/-- R197: LAYER.DRAW changes the surface alone, keeps its size, and at each position leaves it where the layer is transparent and
blends the layer's pixel over it where it is not; a layer whose registers select a reserved mode is refused. That it does so too
for a layer that is no member of SORT's result is the model's choice, log entry 25. -/
def Obligations.LayerDrawBlendsEachPixel : Prop :=
  ∀ (s : State) (l : Layer),
    (layerDrawable s.config s.reg l = true → ∃ sf, exec (.layerDraw (indexOf l)) s = .next (s.setSurface sf)
      ∧ sf.w = s.surface.w ∧ sf.h = s.surface.h
      ∧ ∀ x y, x < s.surface.w → y < s.surface.h → ∃ q, Shows s l x y q
        ∧ (q = none → surfaceAt sf x y = surfaceAt s.surface x y)
        ∧ (∀ p, q = some p → Answers s (.blend (surfaceAt s.surface x y) p) (.pixel (surfaceAt sf x y))))
    ∧ (layerDrawable s.config s.reg l = false → ∃ r, exec (.layerDraw (indexOf l)) s = .refused r)

/-- R198: DRAWFRAME is the cleared surface of the decoded resolution and then, with the display enabled, LAYER.DRAW of each layer
of SORT from first to last. -/
def Obligations.DrawframeClearsThenDrawsInOrder : Prop :=
  ∀ s : State, ∃ ls sf, Answers s .sort (.order ls) ∧ (sf.w, sf.h) = resolution s.config s.reg
    ∧ (∀ x y, x < sf.w → y < sf.h → surfaceAt sf x y = s.config.clear)
    ∧ (fld s.reg s.config.regmap.disp = 1 →
      exec .drawframe s = execAll (ls.map (fun l => .layerDraw (indexOf l))) (s.setSurface sf))
    ∧ (fld s.reg s.config.regmap.disp ≠ 1 → exec .drawframe s = .next (s.setSurface sf))

/-- R198, R193: in a drawn frame, a layer of SORT whose pixel at a position is opaque, with every layer drawn after it transparent
there, is what the surface holds at that position; where every layer of SORT is transparent, it holds P_CLEAR. -/
def Obligations.TopmostOpaquePixelWins : Prop :=
  ∀ (s t : State) (ls : List Layer) (x y : Nat), fld s.reg s.config.regmap.disp = 1 →
    Answers s .sort (.order ls) → exec .drawframe s = .next t → x < t.surface.w → y < t.surface.h →
    (∀ below l above p, ls = below ++ l :: above → Shows s l x y (some p) → p.a = 0xFF#8 → (∀ m ∈ above, Shows s m x y none) →
        surfaceAt t.surface x y = p)
      ∧ ((∀ l ∈ ls, Shows s l x y none) → surfaceAt t.surface x y = s.config.clear)

/-- R47, R209, R249: the frame depends on the memories, the SPRITE port and the registers other than the status register, and on
nothing else: not on the surface before, the logs or the events to come. -/
def Obligations.FrameDependsOnTheSnapshotOnly : Prop :=
  ∀ s s' : State, s.config = Config.default → s'.config = Config.default → s.vram = s'.vram → s.cram = s'.cram →
    s.sprite = s'.sprite → (∀ off, off % 2 = 0 → off ≤ 0x1FE → off ≠ 0x004 → regGet s.reg off = regGet s'.reg off) →
    (∃ sf, exec .drawframe s = .next (s.setSurface sf) ∧ exec .drawframe s' = .next (s'.setSurface sf))
      ∨ ∃ r, exec .drawframe s = .refused r ∧ exec .drawframe s' = .refused r

/-! ## The timing edges -/

/-- R206, R207, R208: the horizontal edges and the vertical-blank-in edge write one flag, emit their notifications in order and
change nothing else, in every state. -/
def Obligations.BlankingEdgesWriteOneFlag : Prop :=
  ∀ s : State, s.config.wf = true →
    (∃ r, FlagWritten s.reg r s.config.regmap.hblank true
      ∧ exec .hbin s = .next { s with reg := r, outputs := s.outputs ++ [.notify .hbin] })
    ∧ (∃ r, FlagWritten s.reg r s.config.regmap.hblank false
      ∧ exec .hbout s = .next { s with reg := r, outputs := s.outputs ++ [.notify .hbout] })
    ∧ (∃ r, FlagWritten s.reg r s.config.regmap.vblank true
      ∧ exec (.vbin false) s = .next { s with reg := r, outputs := s.outputs ++ [.notify .vbin] }
      ∧ exec (.vbin true) s = .next { s with reg := r, outputs := s.outputs ++ [.notify .vbin, .notifySlave .slaveVbin] })

/-- R209: VBOUT clears VBLANK, sets ODD, draws the frame in that state, presents it and notifies, in this order; where DRAWFRAME is
refused the whole event is. -/
def Obligations.VboutDrawsPresentsNotifies : Prop :=
  ∀ s : State, s.config.wf = true →
    ∃ r1 r2, FlagWritten s.reg r1 s.config.regmap.vblank false ∧ FlagWritten r1 r2 s.config.regmap.odd true
      ∧ (∀ t, exec .drawframe { s with reg := r2 } = .next t → exec .vbout s = .next { t with
          outputs := s.outputs ++ [.present t.surface.w t.surface.h t.surface.px, .notify .vbout] })
      ∧ (∀ x, exec .drawframe { s with reg := r2 } = .refused x → exec .vbout s = .refused x)

/-- R224 under the default register map: DRAWFRAME and VBOUT end normally exactly when no layer that is to be drawn selects a
reserved mode, and are refused otherwise; they never fault. -/
def Obligations.FrameIsRefusedExactlyOnReservedModes : Prop :=
  ∀ s : State, s.config = Config.default →
    (frameDrawable s.config s.reg s.sprite → (∃ t, exec .drawframe s = .next t) ∧ ∃ t, exec .vbout s = .next t)
      ∧ (¬frameDrawable s.config s.reg s.sprite →
        ∃ r, exec .drawframe s = .refused r ∧ exec .vbout s = .refused r ∧ (r = .reservedDepth ∨ r = .reservedAuxMode))

/-- R210: the blanking phase and ODD after each edge; apart from a host write of the status register, nothing but VBOUT touches
ODD. -/
def Obligations.BlankingPhaseTable : Prop :=
  ∀ (i : Instr) (s t : State), s.config.wf = true → exec i s = .next t →
    (i = .hbin → hblank t = 1 ∧ vblank t = vblank s) ∧ (i = .hbout → hblank t = 0 ∧ vblank t = vblank s)
      ∧ (∀ b, i = .vbin b → hblank t = hblank s ∧ vblank t = 1) ∧ (i = .vbout → hblank t = hblank s ∧ vblank t = 0 ∧ odd t = 1)
      ∧ (i ≠ .vbout → notStatusWrite i → odd t = odd s)

/-- R215, R198 under the default register map: with the display disabled VBOUT still updates the flags and presents a frame of the
decoded resolution, all P_CLEAR, and notifies. -/
def Obligations.DisabledDisplayPresentsClear : Prop :=
  ∀ s : State, s.config = Config.default → fld s.reg s.config.regmap.disp = 0 →
    ∃ t sf, exec .vbout s = .next t ∧ t.surface = sf ∧ (sf.w, sf.h) = resolution s.config s.reg
      ∧ (∀ x y, x < sf.w → y < sf.h → surfaceAt sf x y = { r := 0, g := 0, b := 0, a := 0 })
      ∧ t.outputs = s.outputs ++ [.present sf.w sf.h sf.px, .notify .vbout] ∧ vblank t = 0 ∧ odd t = 1 ∧ hblank t = hblank s

/-- R216: from any state, after VBIN the VBLANK flag is 1, and after the VBOUT that follows it is 0 and exactly one frame more has
been presented. -/
def Obligations.VbinThenVboutPresentsOneFrame : Prop :=
  ∀ (s : State) (slave : Bool), s.config.wf = true →
    ∃ t, exec (.vbin slave) s = .next t ∧ vblank t = 1 ∧ presentCount t.outputs = presentCount s.outputs
      ∧ ∀ u, exec .vbout t = .next u → vblank u = 0 ∧ presentCount u.outputs = presentCount t.outputs + 1

/-! ## Rules of the whole machine -/

/-- R45: an operation that only answers leaves registers, memories, surface and outputs as they are. -/
def Obligations.AnsweringOperationsChangeNothing : Prop :=
  ∀ (i : Instr) (s t : State), onlyAnswers i = true → exec i s = .next t → ∃ v, t = s.reply v

/-- R51, R229: who may write what. Registers are written by REGWR and, the three flags only, by the edges; video memory by VRAMWR;
colour memory by CRAMWR; the surface by drawing and by a write of the resolution register. Nothing writes the configuration. -/
def Obligations.WhoWritesWhat : Prop :=
  ∀ (i : Instr) (s t : State), s.config.wf = true → exec i s = .next t →
    t.config = s.config ∧ t.inbox = s.inbox ∧ t.sprite = s.sprite
      ∧ (isVramWrite i = false → t.vram = s.vram) ∧ (isCramWrite i = false → t.cram = s.cram)
      ∧ (registerWritten i = none → isEdge i = false → t.reg = s.reg)
      ∧ (∀ off, registerWritten i = some off → ∀ o, o % 2 = 0 → o ≤ 0x1FE → o ≠ off → regGet t.reg o = regGet s.reg o)
      ∧ (isEdge i = true → (∀ o, o % 2 = 0 → o ≤ 0x1FE → o ≠ 0x004 → regGet t.reg o = regGet s.reg o)
        ∧ ∀ j, j < 16 → j ≠ s.config.regmap.hblank.lsb → j ≠ s.config.regmap.vblank.lsb → j ≠ s.config.regmap.odd.lsb →
          (regGet t.reg 0x004).getLsbD j = (regGet s.reg 0x004).getLsbD j)
      ∧ (draws i = false → registerWritten i ≠ some 0x000 → t.surface = s.surface)

/-- R199, R246: PRESENT emits the value of the surface and changes nothing else; a frame is presented by VBOUT and PRESENT, once
each, and by nothing else; and no run of operations takes an output back or changes it. -/
def Obligations.OneFramePerVbout : Prop :=
  (∀ s : State, exec .present s
      = .next { s with outputs := s.outputs ++ [.present s.surface.w s.surface.h s.surface.px] })
    ∧ (∀ (i : Instr) (s t : State), exec i s = .next t →
      ∃ new, t.outputs = s.outputs ++ new ∧ presentCount new = if presents i then 1 else 0)
    ∧ (∀ (ops : List Instr) (s t : State), execAll ops s = .next t → ∃ more, t.outputs = s.outputs ++ more)

/-- R220, R222: an event faults exactly when its operands break the port contract, and then nothing of it happens. -/
def Obligations.EventsFaultExactlyOutOfContract : Prop :=
  ∀ (i : Instr) (s : State), isEvent i = true → (inContract s.config i = false ↔ ∃ f, exec i s = .fault f)
end

