-- ==== Sys2Proof/Laws/State.lean ====
section
/-! SUPPORT. One lemma per field per update of the state, and the snapshot after each update. -/

namespace Sys2Proof.Machine

variable (s : State)

@[simp] theorem State.setBank_reg (r : Bank) : (s.setBank r).reg = r := rfl
@[simp] theorem State.setBank_vram (r : Bank) : (s.setBank r).vram = s.vram := rfl
@[simp] theorem State.setBank_cram (r : Bank) : (s.setBank r).cram = s.cram := rfl
@[simp] theorem State.setBank_surface (r : Bank) : (s.setBank r).surface = s.surface := rfl
@[simp] theorem State.setBank_inbox (r : Bank) : (s.setBank r).inbox = s.inbox := rfl
@[simp] theorem State.setBank_sprite (r : Bank) : (s.setBank r).sprite = s.sprite := rfl
@[simp] theorem State.setBank_answers (r : Bank) : (s.setBank r).answers = s.answers := rfl
@[simp] theorem State.setBank_outputs (r : Bank) : (s.setBank r).outputs = s.outputs := rfl
@[simp] theorem State.setBank_unspecSeq (r : Bank) : (s.setBank r).unspecSeq = s.unspecSeq := rfl
@[simp] theorem State.setBank_config (r : Bank) : (s.setBank r).config = s.config := rfl
@[simp] theorem State.setBank_snap (r : Bank) : (s.setBank r).snap = { s.snap with reg := r } := rfl

@[simp] theorem State.setVram_reg (m : Memory) : (s.setVram m).reg = s.reg := rfl
@[simp] theorem State.setVram_vram (m : Memory) : (s.setVram m).vram = m := rfl
@[simp] theorem State.setVram_cram (m : Memory) : (s.setVram m).cram = s.cram := rfl
@[simp] theorem State.setVram_surface (m : Memory) : (s.setVram m).surface = s.surface := rfl
@[simp] theorem State.setVram_inbox (m : Memory) : (s.setVram m).inbox = s.inbox := rfl
@[simp] theorem State.setVram_sprite (m : Memory) : (s.setVram m).sprite = s.sprite := rfl
@[simp] theorem State.setVram_answers (m : Memory) : (s.setVram m).answers = s.answers := rfl
@[simp] theorem State.setVram_outputs (m : Memory) : (s.setVram m).outputs = s.outputs := rfl
@[simp] theorem State.setVram_unspecSeq (m : Memory) : (s.setVram m).unspecSeq = s.unspecSeq := rfl
@[simp] theorem State.setVram_config (m : Memory) : (s.setVram m).config = s.config := rfl
@[simp] theorem State.setVram_snap (m : Memory) : (s.setVram m).snap = { s.snap with vram := m } := rfl

@[simp] theorem State.setCram_reg (m : Memory) : (s.setCram m).reg = s.reg := rfl
@[simp] theorem State.setCram_vram (m : Memory) : (s.setCram m).vram = s.vram := rfl
@[simp] theorem State.setCram_cram (m : Memory) : (s.setCram m).cram = m := rfl
@[simp] theorem State.setCram_surface (m : Memory) : (s.setCram m).surface = s.surface := rfl
@[simp] theorem State.setCram_inbox (m : Memory) : (s.setCram m).inbox = s.inbox := rfl
@[simp] theorem State.setCram_sprite (m : Memory) : (s.setCram m).sprite = s.sprite := rfl
@[simp] theorem State.setCram_answers (m : Memory) : (s.setCram m).answers = s.answers := rfl
@[simp] theorem State.setCram_outputs (m : Memory) : (s.setCram m).outputs = s.outputs := rfl
@[simp] theorem State.setCram_unspecSeq (m : Memory) : (s.setCram m).unspecSeq = s.unspecSeq := rfl
@[simp] theorem State.setCram_config (m : Memory) : (s.setCram m).config = s.config := rfl
@[simp] theorem State.setCram_snap (m : Memory) : (s.setCram m).snap = { s.snap with cram := m } := rfl

@[simp] theorem State.setSurface_reg (sf : Surface) : (s.setSurface sf).reg = s.reg := rfl
@[simp] theorem State.setSurface_vram (sf : Surface) : (s.setSurface sf).vram = s.vram := rfl
@[simp] theorem State.setSurface_cram (sf : Surface) : (s.setSurface sf).cram = s.cram := rfl
@[simp] theorem State.setSurface_surface (sf : Surface) : (s.setSurface sf).surface = sf := rfl
@[simp] theorem State.setSurface_inbox (sf : Surface) : (s.setSurface sf).inbox = s.inbox := rfl
@[simp] theorem State.setSurface_sprite (sf : Surface) : (s.setSurface sf).sprite = s.sprite := rfl
@[simp] theorem State.setSurface_answers (sf : Surface) : (s.setSurface sf).answers = s.answers := rfl
@[simp] theorem State.setSurface_outputs (sf : Surface) : (s.setSurface sf).outputs = s.outputs := rfl
@[simp] theorem State.setSurface_unspecSeq (sf : Surface) : (s.setSurface sf).unspecSeq = s.unspecSeq := rfl
@[simp] theorem State.setSurface_config (sf : Surface) : (s.setSurface sf).config = s.config := rfl
@[simp] theorem State.setSurface_snap (sf : Surface) : (s.setSurface sf).snap = s.snap := rfl

@[simp] theorem State.reply_reg (v : Answer) : (s.reply v).reg = s.reg := rfl
@[simp] theorem State.reply_vram (v : Answer) : (s.reply v).vram = s.vram := rfl
@[simp] theorem State.reply_cram (v : Answer) : (s.reply v).cram = s.cram := rfl
@[simp] theorem State.reply_surface (v : Answer) : (s.reply v).surface = s.surface := rfl
@[simp] theorem State.reply_inbox (v : Answer) : (s.reply v).inbox = s.inbox := rfl
@[simp] theorem State.reply_sprite (v : Answer) : (s.reply v).sprite = s.sprite := rfl
@[simp] theorem State.reply_answers (v : Answer) : (s.reply v).answers = s.answers ++ [v] := rfl
@[simp] theorem State.reply_outputs (v : Answer) : (s.reply v).outputs = s.outputs := rfl
@[simp] theorem State.reply_unspecSeq (v : Answer) : (s.reply v).unspecSeq = s.unspecSeq := rfl
@[simp] theorem State.reply_config (v : Answer) : (s.reply v).config = s.config := rfl
@[simp] theorem State.reply_snap (v : Answer) : (s.reply v).snap = s.snap := rfl

@[simp] theorem State.emit_reg (o : Output) : (s.emit o).reg = s.reg := rfl
@[simp] theorem State.emit_vram (o : Output) : (s.emit o).vram = s.vram := rfl
@[simp] theorem State.emit_cram (o : Output) : (s.emit o).cram = s.cram := rfl
@[simp] theorem State.emit_surface (o : Output) : (s.emit o).surface = s.surface := rfl
@[simp] theorem State.emit_inbox (o : Output) : (s.emit o).inbox = s.inbox := rfl
@[simp] theorem State.emit_sprite (o : Output) : (s.emit o).sprite = s.sprite := rfl
@[simp] theorem State.emit_answers (o : Output) : (s.emit o).answers = s.answers := rfl
@[simp] theorem State.emit_outputs (o : Output) : (s.emit o).outputs = s.outputs ++ [o] := rfl
@[simp] theorem State.emit_unspecSeq (o : Output) : (s.emit o).unspecSeq = s.unspecSeq := rfl
@[simp] theorem State.emit_config (o : Output) : (s.emit o).config = s.config := rfl
@[simp] theorem State.emit_snap (o : Output) : (s.emit o).snap = s.snap := rfl

@[simp] theorem State.resize_reg (w h : Nat) : (s.resize w h).reg = s.reg := rfl
@[simp] theorem State.resize_vram (w h : Nat) : (s.resize w h).vram = s.vram := rfl
@[simp] theorem State.resize_cram (w h : Nat) : (s.resize w h).cram = s.cram := rfl
@[simp] theorem State.resize_surface (w h : Nat) : (s.resize w h).surface = { w := w, h := h, px := .unspecified s.unspecSeq } := rfl
@[simp] theorem State.resize_inbox (w h : Nat) : (s.resize w h).inbox = s.inbox := rfl
@[simp] theorem State.resize_sprite (w h : Nat) : (s.resize w h).sprite = s.sprite := rfl
@[simp] theorem State.resize_answers (w h : Nat) : (s.resize w h).answers = s.answers := rfl
@[simp] theorem State.resize_outputs (w h : Nat) : (s.resize w h).outputs = s.outputs := rfl
@[simp] theorem State.resize_unspecSeq (w h : Nat) : (s.resize w h).unspecSeq = s.unspecSeq + 1 := rfl
@[simp] theorem State.resize_config (w h : Nat) : (s.resize w h).config = s.config := rfl
@[simp] theorem State.resize_snap (w h : Nat) : (s.resize w h).snap = s.snap := rfl

@[simp] theorem State.accept_reg (inp : Input) (rest : List Input) : (s.accept inp rest).reg = s.reg := rfl
@[simp] theorem State.accept_vram (inp : Input) (rest : List Input) : (s.accept inp rest).vram = s.vram := rfl
@[simp] theorem State.accept_cram (inp : Input) (rest : List Input) : (s.accept inp rest).cram = s.cram := rfl
@[simp] theorem State.accept_surface (inp : Input) (rest : List Input) : (s.accept inp rest).surface = s.surface := rfl
@[simp] theorem State.accept_inbox (inp : Input) (rest : List Input) : (s.accept inp rest).inbox = rest := rfl
@[simp] theorem State.accept_sprite (inp : Input) (rest : List Input) : (s.accept inp rest).sprite = inp.sprite := rfl
@[simp] theorem State.accept_answers (inp : Input) (rest : List Input) : (s.accept inp rest).answers = s.answers := rfl
@[simp] theorem State.accept_outputs (inp : Input) (rest : List Input) : (s.accept inp rest).outputs = s.outputs := rfl
@[simp] theorem State.accept_unspecSeq (inp : Input) (rest : List Input) : (s.accept inp rest).unspecSeq = s.unspecSeq := rfl
@[simp] theorem State.accept_config (inp : Input) (rest : List Input) : (s.accept inp rest).config = s.config := rfl
@[simp] theorem State.accept_snap (inp : Input) (rest : List Input) : (s.accept inp rest).snap = s.snap := rfl

@[simp] theorem State.snap_reg : s.snap.reg = s.reg := rfl
@[simp] theorem State.snap_vram : s.snap.vram = s.vram := rfl
@[simp] theorem State.snap_cram : s.snap.cram = s.cram := rfl
@[simp] theorem State.snap_config : s.snap.config = s.config := rfl

end Sys2Proof.Machine
end

