-- ==== Sys2Proof/Laws/Memory.lean ====
section
/-! SUPPORT. Laws of the memory operations: read after write, every other byte left alone, and the canonical form kept. -/

namespace Sys2Proof.Machine

/-! ## One byte -/

@[simp] theorem memFind_nil (a : Nat) : memFind [] a = none := rfl

@[simp] theorem memFind_cons (k : Nat) (v : Byte) (m : Memory) (a : Nat) :
    memFind ((k, v) :: m) a = if k = a then some v else memFind m a := rfl

/-- What an address listed with a byte reads as, in either memory. -/
theorem memGet_listed {sp : Space} {m : Memory} {a : Nat} {v : Byte} (h : memFind m a = some v) : memGet sp m a = v := by
  rw [memGet, h, Option.getD_some]

/-- What an address that is not listed reads as: the byte of the launch state. -/
theorem memGet_unlisted {sp : Space} {m : Memory} {a : Nat} (h : memFind m a = none) : memGet sp m a = Config.launchByte sp a := by
  rw [memGet, h, Option.getD_none, unlisted]

/-- The entry at the address written, and every other entry as it was. -/
theorem memFind_memSet (m : Memory) (a b : Nat) (v : Byte) :
    memFind (memSet m a v) b = if b = a then some v else memFind m b := by
  induction m with
  | nil => simp [memSet, eq_comm]
  | cons c m ih =>
    obtain ⟨k, w⟩ := c
    unfold memSet
    split
    · simp [eq_comm]
    · split
      · subst_vars
        by_cases h : b = k <;> simp [h, eq_comm]
      · rename_i h2
        by_cases hk : k = b
        · subst hk
          simp [Ne.symm h2]
        · simp [hk, ih]

/-- Read after write, and a write leaves every other byte alone. -/
theorem memGet_memSet (sp : Space) (m : Memory) (a b : Nat) (v : Byte) :
    memGet sp (memSet m a v) b = if b = a then v else memGet sp m b := by
  rw [memGet, memFind_memSet]
  split
  · rfl
  · rfl

theorem mem_memSet {m : Memory} {a : Nat} {v : Byte} {c : Host.Cell} (h : c ∈ memSet m a v) : c = (a, v) ∨ c ∈ m := by
  induction m with
  | nil => simpa [memSet] using h
  | cons d m ih =>
    unfold memSet at h
    split at h
    · simpa using h
    · split at h
      · rcases List.mem_cons.mp h with h | h
        · exact .inl h
        · exact .inr (List.mem_cons_of_mem _ h)
      · rcases List.mem_cons.mp h with h | h
        · exact .inr (h ▸ List.mem_cons_self)
        · exact (ih h).imp_right (List.mem_cons_of_mem _)

/-- Every store of one byte keeps the canonical form. -/
theorem memSet_wf {m : Memory} (a : Nat) (v : Byte) (hm : m.wf) : (memSet m a v).wf := by
  induction m with
  | nil => simp [memSet]
  | cons d m ih =>
    obtain ⟨k, w⟩ := d
    obtain ⟨hk, hrest⟩ := List.pairwise_cons.mp hm
    unfold memSet
    split
    · rename_i h
      refine List.pairwise_cons.mpr ⟨fun c hc => ?_, hm⟩
      rcases List.mem_cons.mp hc with rfl | hc
      · exact h
      · exact Nat.lt_trans h (hk c hc)
    · split
      · subst_vars
        exact List.pairwise_cons.mpr ⟨hk, hrest⟩
      · rename_i h1 h2
        refine List.pairwise_cons.mpr ⟨fun c hc => ?_, ih hrest⟩
        rcases mem_memSet hc with rfl | hc
        · simp only; omega
        · exact hk c hc

/-- An address below every entry is not listed. -/
theorem memFind_below {m : Memory} {a : Nat} (h : ∀ c ∈ m, a < c.1) : memFind m a = none := by
  induction m with
  | nil => rfl
  | cons c m ih =>
    obtain ⟨k, v⟩ := c
    have hk : a < k := h (k, v) List.mem_cons_self
    rw [memFind_cons, if_neg (Nat.ne_of_gt hk), ih (fun c hc => h c (List.mem_cons_of_mem _ hc))]

/-- In the canonical form, an entry of the list is what its address holds. -/
theorem memFind_of_mem {m : Memory} {a : Nat} {v : Byte} (hm : m.wf) (h : (a, v) ∈ m) : memFind m a = some v := by
  induction m with
  | nil => cases h
  | cons c m ih =>
    obtain ⟨k, w⟩ := c
    obtain ⟨hk, hrest⟩ := List.pairwise_cons.mp hm
    rcases List.mem_cons.mp h with heq | hmem
    · cases heq
      simp
    · have hne : k ≠ a := Nat.ne_of_lt (hk (a, v) hmem)
      rw [memFind_cons, if_neg hne, ih hrest hmem]

/-- The form is canonical: two memories in it that hold the same byte at every address are the same list. -/
theorem memory_ext {m n : Memory} (hm : m.wf) (hn : n.wf) (h : ∀ a, memFind m a = memFind n a) : m = n := by
  induction m generalizing n with
  | nil =>
    cases n with
    | nil => rfl
    | cons d n =>
      obtain ⟨l, w⟩ := d
      simpa using h l
  | cons c m ih =>
    obtain ⟨k, v⟩ := c
    obtain ⟨hk, hmrest⟩ := List.pairwise_cons.mp hm
    cases n with
    | nil => simpa using h k
    | cons d n =>
      obtain ⟨l, w⟩ := d
      obtain ⟨hl, hnrest⟩ := List.pairwise_cons.mp hn
      have hkl : k = l := by
        rcases Nat.lt_trichotomy k l with hlt | heq | hgt
        · have hnone : memFind ((l, w) :: n) k = none := memFind_below (fun c hc => by
            rcases List.mem_cons.mp hc with rfl | hc
            · exact hlt
            · exact Nat.lt_trans hlt (hl c hc))
          have := h k
          simp [hnone] at this
        · exact heq
        · have hnone : memFind ((k, v) :: m) l = none := memFind_below (fun c hc => by
            rcases List.mem_cons.mp hc with rfl | hc
            · exact hgt
            · exact Nat.lt_trans hgt (hk c hc))
          have := h l
          simp [hnone] at this
      subst hkl
      have hv : v = w := by simpa using h k
      subst hv
      refine congrArg _ (ih hmrest hnrest fun a => ?_)
      by_cases ha : k = a
      · subst ha
        rw [memFind_below hk, memFind_below hl]
      · simpa [ha] using h a

/-- A store inside a space keeps the memory inside it. -/
theorem memSet_within {m : Memory} {size a : Nat} (v : Byte) (hm : m.within size) (ha : a < size) :
    (memSet m a v).within size := by
  intro c hc
  rcases mem_memSet hc with rfl | hc
  · exact ha
  · exact hm c hc

/-! ## Several bytes -/

theorem writeBytes_wf (size : Nat) (bs : List Byte) (m : Memory) (a : Nat) (hm : m.wf) : (writeBytes m size a bs).wf := by
  induction bs generalizing m a with
  | nil => exact hm
  | cons b bs ih => exact ih _ _ (memSet_wf _ _ hm)

theorem writeBytes_within (size : Nat) (hsize : 0 < size) (bs : List Byte) (m : Memory) (a : Nat) (hm : m.within size) :
    (writeBytes m size a bs).within size := by
  induction bs generalizing m a with
  | nil => exact hm
  | cons b bs ih => exact ih _ _ (memSet_within _ hm (Nat.mod_lt _ hsize))

/-- What a write of bytes inside a space leaves at each address of it. -/
theorem memGet_writeBytes (sp : Space) (size : Nat) (bs : List Byte) (m : Memory) (a b : Nat) (ha : a + bs.length ≤ size) :
    memGet sp (writeBytes m size a bs) b = if a ≤ b ∧ b < a + bs.length then bs.getD (b - a) 0 else memGet sp m b := by
  induction bs generalizing m a with
  | nil =>
    have : ¬(a ≤ b ∧ b < a + ([] : List Byte).length) := by simp
    rw [writeBytes, if_neg this]
  | cons c bs ih =>
    simp only [List.length_cons] at ha
    have hmod : a % size = a := Nat.mod_eq_of_lt (by omega)
    rw [writeBytes, hmod, ih _ _ (by omega), memGet_memSet]
    by_cases h1 : b = a
    · subst h1
      have h2 : ¬(b + 1 ≤ b ∧ b < b + 1 + bs.length) := by omega
      have h3 : b ≤ b ∧ b < b + (bs.length + 1) := by omega
      rw [if_neg h2, if_pos rfl, List.length_cons, if_pos h3]
      simp
    · by_cases h2 : a + 1 ≤ b ∧ b < a + 1 + bs.length
      · have h3 : a ≤ b ∧ b < a + (c :: bs).length := by simp only [List.length_cons]; omega
        rw [if_pos h2, if_pos h3]
        obtain ⟨k, hk⟩ : ∃ k, b - a = k + 1 := ⟨b - a - 1, by omega⟩
        have : b - (a + 1) = k := by omega
        simp [hk, this]
      · have h3 : ¬(a ≤ b ∧ b < a + (c :: bs).length) := by simp only [List.length_cons]; omega
        rw [if_neg h2, if_neg h3, if_neg h1]

/-- Every byte outside the bytes written reads as before. -/
theorem memGet_writeBytes_other (sp : Space) (size : Nat) (bs : List Byte) (m : Memory) (a b : Nat) (ha : a + bs.length ≤ size)
    (hb : ¬(a ≤ b ∧ b < a + bs.length)) : memGet sp (writeBytes m size a bs) b = memGet sp m b := by
  rw [memGet_writeBytes sp size bs m a b ha, if_neg hb]

theorem readByte_of_lt (sp : Space) (m : Memory) {size a : Nat} (h : a < size) : readByte sp m size a = memGet sp m a := by
  rw [readByte, Nat.mod_eq_of_lt h]

/-- Two bit strings side by side, as a number. -/
theorem append_toNat {n m : Nat} (x : BitVec n) (y : BitVec m) : (x ++ y).toNat = x.toNat * 2 ^ m + y.toNat := by
  rw [BitVec.toNat_append, ← Nat.shiftLeft_add_eq_or_of_lt y.isLt, Nat.shiftLeft_eq]

/-- A 16-bit read as a number (R41): the byte at the lower address counts 256. -/
theorem read16_toNat (sp : Space) (m : Memory) (size a : Nat) :
    (read16 sp m size a).toNat = (readByte sp m size a).toNat * 256 + (readByte sp m size (a + 1)).toNat := by
  simp only [read16, append_toNat, Nat.reducePow]

/-- A 32-bit read as a number (R41). -/
theorem read32_toNat (sp : Space) (m : Memory) (size a : Nat) :
    (read32 sp m size a).toNat = ((readByte sp m size a).toNat * 256 + (readByte sp m size (a + 1)).toNat) * 65536
      + (readByte sp m size (a + 2)).toNat * 256 + (readByte sp m size (a + 3)).toNat := by
  rw [read32, append_toNat, append_toNat, append_toNat]
  omega

end Sys2Proof.Machine
end

