-- ==== Sys2Proof/Laws/Registers.lean ====
section
/-! SUPPORT. Laws of the register bank, its fields and the status flags. -/

namespace Sys2Proof.Machine

theorem offsetOk_iff (off : Nat) : offsetOk off = true ↔ off % 2 = 0 ∧ off ≤ 0x1FE := by simp [offsetOk]

/-- A register write is read back. -/
@[simp] theorem regGet_regPut_same (reg : Bank) (off : Nat) (v : Word16) (h : off ≤ 0x1FE) :
    regGet (regPut reg off v) off = v := by
  have : off / 2 < 256 := by omega
  simp [regGet, regPut, this]

/-- A register write leaves every other register alone. -/
theorem regGet_regPut_other (reg : Bank) {off off' : Nat} (v : Word16) (h : off / 2 ≠ off' / 2) :
    regGet (regPut reg off v) off' = regGet reg off' := by
  simp [regGet, regPut, h]

theorem regPut_regGet (reg : Bank) (off : Nat) : regPut reg off (regGet reg off) = reg := by
  unfold regPut regGet
  ext i hi
  rw [Vector.getElem_setIfInBounds]
  split
  · subst_vars; simp [Vector.getElem?_eq_getElem hi]
  · rfl

/-- A field of another register is not changed by a register write. -/
theorem fld_regPut_other (reg : Bank) (f : Field) {off : Nat} (v : Word16) (h : off / 2 ≠ f.off / 2) :
    fld (regPut reg off v) f = fld reg f := by
  rw [fld, fld, regGet_regPut_other reg v h]

theorem fld_setFlag_other (reg : Bank) (f g : Field) (h : g.off / 2 ≠ f.off / 2) : fld (setFlag reg g) f = fld reg f :=
  fld_regPut_other reg f _ h

theorem fld_clrFlag_other (reg : Bank) (f g : Field) (h : g.off / 2 ≠ f.off / 2) : fld (clrFlag reg g) f = fld reg f :=
  fld_regPut_other reg f _ h

/-- What a well-formed register map says of the fields that the invariant reads. -/
theorem RegMap.wf_offsets {m : RegMap} (h : m.wf = true) :
    m.lsmd.off = 0 ∧ m.vreso.off = 0 ∧ m.hreso.off = 0 ∧ m.vblank.off = 4 ∧ m.hblank.off = 4 ∧ m.odd.off = 4 := by
  simp only [RegMap.wf, Bool.and_eq_true, beq_iff_eq] at h
  tauto

theorem Config.wf_regmap {c : Config} (h : c.wf = true) : c.regmap.wf = true := by
  simp only [Config.wf, Bool.and_eq_true] at h
  tauto

/-- Only a write at offset 0x000 can change the decoded resolution (R83, R84). -/
theorem resolution_regPut_other {c : Config} (hc : c.wf = true) (reg : Bank) {off : Nat} (v : Word16) (h : off / 2 ≠ 0) :
    resolution c (regPut reg off v) = resolution c reg := by
  obtain ⟨h1, h2, h3, -⟩ := RegMap.wf_offsets (Config.wf_regmap hc)
  have e1 := fld_regPut_other reg c.regmap.lsmd v (by rw [h1]; exact h)
  have e2 := fld_regPut_other reg c.regmap.vreso v (by rw [h2]; exact h)
  have e3 := fld_regPut_other reg c.regmap.hreso v (by rw [h3]; exact h)
  rw [resolution, resolution, e1, e2, e3]

theorem resolution_setFlag {c : Config} (hc : c.wf = true) (reg : Bank) {f : Field} (h : f.off = 4) :
    resolution c (setFlag reg f) = resolution c reg :=
  resolution_regPut_other hc reg _ (by rw [h]; decide)

theorem resolution_clrFlag {c : Config} (hc : c.wf = true) (reg : Bank) {f : Field} (h : f.off = 4) :
    resolution c (clrFlag reg f) = resolution c reg :=
  resolution_regPut_other hc reg _ (by rw [h]; decide)

/-- The three flags stand at different places of the status register, and each is one bit. -/
theorem Config.wf_flags {c : Config} (h : c.wf = true) :
    c.regmap.vblank.lsb ≠ c.regmap.hblank.lsb ∧ c.regmap.vblank.lsb ≠ c.regmap.odd.lsb
      ∧ c.regmap.hblank.lsb ≠ c.regmap.odd.lsb ∧ c.regmap.vblank.lsb < 16 ∧ c.regmap.hblank.lsb < 16 ∧ c.regmap.odd.lsb < 16
      ∧ c.regmap.vblank.width = 1 ∧ c.regmap.hblank.width = 1 ∧ c.regmap.odd.width = 1 := by
  have := Config.wf_regmap h
  simp only [RegMap.wf, Field.wfWidth, Field.wf, Bool.and_eq_true, beq_iff_eq, bne_iff_ne, decide_eq_true_eq] at this
  obtain ⟨⟨_, _⟩, _⟩ := this
  refine ⟨by tauto, by tauto, by tauto, ?_, ?_, ?_, by tauto, by tauto, by tauto⟩
  all_goals omega

/-- A one-bit field is the bit at its place. -/
theorem fld_oneBit (reg : Bank) (f : Field) (hw : f.width = 1) : fld reg f = ((regGet reg f.off).getLsbD f.lsb).toNat := by
  rw [fld, hw, BitVec.getLsbD, Nat.testBit, Nat.and_comm, Nat.and_one_is_mod]
  rcases Nat.mod_two_eq_zero_or_one ((regGet reg f.off).toNat >>> f.lsb) with h | h <;> simp [h]

theorem flagMask_getLsbD (f : Field) (j : Nat) (hj : j < 16) : (flagMask f).getLsbD j = decide (j = f.lsb) := by
  rw [flagMask, BitVec.getLsbD_shiftLeft, BitVec.getLsbD_one]
  rcases Nat.lt_trichotomy j f.lsb with h | h | h
  · simp [h, Nat.ne_of_lt h]
  · simp [h]; omega
  · have h2 : ¬(j - f.lsb = 0) := by omega
    have h3 : ¬j = f.lsb := by omega
    simp [h2, h3]

/-- SET makes one bit 1 and preserves the other fifteen (47_timing.md). -/
theorem setFlag_getLsbD (reg : Bank) (f : Field) (hf : f.off ≤ 0x1FE) (j : Nat) (hj : j < 16) :
    (regGet (setFlag reg f) f.off).getLsbD j = (decide (j = f.lsb) || (regGet reg f.off).getLsbD j) := by
  rw [setFlag, regGet_regPut_same _ _ _ hf, BitVec.getLsbD_or, flagMask_getLsbD _ _ hj, Bool.or_comm]

/-- CLR makes one bit 0 and preserves the other fifteen (47_timing.md). -/
theorem clrFlag_getLsbD (reg : Bank) (f : Field) (hf : f.off ≤ 0x1FE) (j : Nat) (hj : j < 16) :
    (regGet (clrFlag reg f) f.off).getLsbD j = (!decide (j = f.lsb) && (regGet reg f.off).getLsbD j) := by
  rw [clrFlag, regGet_regPut_same _ _ _ hf, BitVec.getLsbD_and, BitVec.getLsbD_not, flagMask_getLsbD _ _ hj, Bool.and_comm]
  simp [hj]

end Sys2Proof.Machine
end

