-- ==== Sys2Proof/Laws/Host.lean ====
section
/-! SUPPORT. What each host transaction can do, said once: the case in which it ends normally and the state it leaves, and the case
in which it faults. -/

namespace Sys2Proof.Machine

/-- An operation that checks a contract and then leaves one state ends normally exactly in contract. -/
theorem checked_next {ok : Bool} {s t : State} {cause : Fault} :
    ((if ok then .next s else raise cause : Result) = .next t) ↔ ok = true ∧ t = s := by
  cases ok <;> simp [raise, eq_comm]

/-- A register write ends normally exactly in contract, and then leaves the state stored and triggered. -/
theorem hostRegWrite_next {off : Nat} {val : Word16} {s t : State} :
    hostRegWrite off val s = .next t ↔ offsetOk off = true ∧ t = afterRegWrite off (s.setBank (regPut s.reg off val)) := by
  rw [hostRegWrite, checked_next]

theorem hostRegWrite_ok {off : Nat} (val : Word16) (s : State) (h : offsetOk off = true) :
    hostRegWrite off val s = .next (afterRegWrite off (s.setBank (regPut s.reg off val))) := by
  rw [hostRegWrite, if_pos h]

theorem hostRegWrite_bad {off : Nat} (val : Word16) (s : State) (h : offsetOk off = false) :
    hostRegWrite off val s = .fault (.badRegOffset off) := by
  rw [hostRegWrite, if_neg (by simp [h]), raise]

/-- Only a write at 0x000 has a trigger that does more than the store. -/
theorem afterRegWrite_other {off : Nat} (s : State) (h : off ≠ 0) : afterRegWrite off s = s := if_neg h

/-- The trigger of the resolution register leaves the state as it is, or resizes the surface. -/
theorem afterResolutionWrite_cases (s : State) :
    ((resolution s.config s.reg).1 = s.surface.w ∧ (resolution s.config s.reg).2 = s.surface.h ∧ afterResolutionWrite s = s)
      ∨ (¬((resolution s.config s.reg).1 = s.surface.w ∧ (resolution s.config s.reg).2 = s.surface.h)
        ∧ afterResolutionWrite s = s.resize (resolution s.config s.reg).1 (resolution s.config s.reg).2) := by
  unfold afterResolutionWrite
  simp only
  split
  · rename_i h
    exact .inl ⟨h.1, h.2, rfl⟩
  · exact .inr ⟨by assumption, rfl⟩

/-- After its trigger, a register write has left everything but the registers and the surface as it was. -/
theorem afterRegWrite_frame (off : Nat) (s : State) :
    (afterRegWrite off s).reg = s.reg ∧ (afterRegWrite off s).vram = s.vram ∧ (afterRegWrite off s).cram = s.cram
      ∧ (afterRegWrite off s).inbox = s.inbox ∧ (afterRegWrite off s).sprite = s.sprite
      ∧ (afterRegWrite off s).answers = s.answers ∧ (afterRegWrite off s).outputs = s.outputs
      ∧ (afterRegWrite off s).config = s.config := by
  unfold afterRegWrite
  split
  · rcases afterResolutionWrite_cases s with ⟨-, -, h⟩ | ⟨-, h⟩ <;> simp [h]
  · simp

/-- A register read ends normally exactly in contract, and answers the register. -/
theorem hostRegRead_next {off : Nat} {s t : State} :
    hostRegRead off s = .next t ↔ offsetOk off = true ∧ t = s.reply (.word (regGet s.reg off)) := by
  rw [hostRegRead, checked_next]

/-- A host write of video memory ends normally exactly in contract, and stores its bytes. -/
theorem hostVramWrite_next {addr : Nat} {bytes : List Byte} {s t : State} :
    hostVramWrite addr bytes s = .next t ↔ accessOk s.config.vramBytes addr bytes.length = true
      ∧ t = s.setVram (writeBytes s.vram s.config.vramBytes addr bytes) := by
  rw [hostVramWrite, checked_next]

/-- A host read of video memory ends normally exactly in contract, and answers. -/
theorem hostVramRead_next {addr n : Nat} {value : Snap → Nat → Answer} {s t : State} :
    hostVramRead addr n value s = .next t ↔ accessOk s.config.vramBytes addr n = true ∧ t = s.reply (value s.snap addr) := by
  rw [hostVramRead, checked_next]

/-- A host write of colour memory ends normally exactly in contract; it stores its bytes, twice in legacy mode. -/
theorem hostCramWrite_next {addr : Nat} {bytes : List Byte} {s t : State} :
    hostCramWrite addr bytes s = .next t ↔ accessOk cramBytes addr bytes.length = true
      ∧ t = s.setCram (if cramModeOf s.config s.reg = .legacy
          then writeBytes (writeBytes s.cram cramBytes addr bytes) cramBytes (shadowAddr addr) bytes
          else writeBytes s.cram cramBytes addr bytes) := by
  unfold hostCramWrite
  simp only [checked_next]
  cases cramModeOf s.config s.reg <;> simp

/-- A host read of colour memory ends normally exactly in contract, and answers. -/
theorem hostCramRead_next {addr n : Nat} {value : Memory → Nat → Answer} {s t : State} :
    hostCramRead addr n value s = .next t ↔ accessOk cramBytes addr n = true ∧ t = s.reply (value s.cram addr) := by
  rw [hostCramRead, checked_next]

/-- An operation on a layer index ends as the operation of the layer the index names, and faults where it names none. -/
theorem withLayer_next {index : Nat} {op : Layer → Result} {t : State} :
    withLayer index op = .next t ↔ ∃ l, layerOfIndex index = some l ∧ op l = .next t := by
  unfold withLayer raise
  split <;> simp_all

end Sys2Proof.Machine
end

