-- ==== Sys2Proof/Laws/Surface.lean ====
section
/-! SUPPORT. Laws of the output surface and of drawing into it. -/

namespace Sys2Proof.Machine

@[simp] theorem buildSurface_w (w h : Nat) (f : Nat → Nat → Pixel) : (buildSurface w h f).w = w := rfl
@[simp] theorem buildSurface_h (w h : Nat) (f : Nat → Nat → Pixel) : (buildSurface w h f).h = h := rfl

/-- The pixel that a built surface holds at a position inside it. -/
theorem surfaceAt_buildSurface {w h x y : Nat} (f : Nat → Nat → Pixel) (hx : x < w) (hy : y < h) :
    surfaceAt (buildSurface w h f) x y = f x y := by
  simp [surfaceAt, buildSurface, hx, hy]

theorem buildSurface_wf (w h : Nat) (f : Nat → Nat → Pixel) : (buildSurface w h f).wf := by
  simp [Surface.wf, buildSurface]

theorem paintSurface_at {sf : Surface} (src : Nat → Nat → Option Pixel) {x y : Nat} (hx : x < sf.w) (hy : y < sf.h) :
    surfaceAt (paintSurface sf src) x y = paintPixel (surfaceAt sf x y) (src x y) :=
  surfaceAt_buildSurface _ hx hy

/-- A layer that is drawn keeps the size of the surface and leaves it well-formed. -/
theorem drawLayer_ok {v : Snap} {port : SpritePort} {l : Layer} {sf sf' : Surface} (h : drawLayer v port l sf = .ok sf') :
    sf'.w = sf.w ∧ sf'.h = sf.h ∧ sf'.wf := by
  unfold drawLayer at h
  split at h
  · cases h
    exact ⟨rfl, rfl, buildSurface_wf _ _ _⟩
  · cases h

theorem drawLayers_ok {v : Snap} {port : SpritePort} {ls : List Layer} {sf sf' : Surface} (hsf : sf.wf)
    (h : drawLayers v port ls sf = .ok sf') : sf'.w = sf.w ∧ sf'.h = sf.h ∧ sf'.wf := by
  induction ls generalizing sf with
  | nil => cases h; exact ⟨rfl, rfl, hsf⟩
  | cons l ls ih =>
    unfold drawLayers at h
    split at h
    · rename_i sf1 h1
      obtain ⟨hw, hh, hwf⟩ := drawLayer_ok h1
      obtain ⟨hw', hh', hwf'⟩ := ih hwf h
      exact ⟨hw'.trans hw, hh'.trans hh, hwf'⟩
    · cases h

/-- A frame that is drawn has the configured resolution (R198). -/
theorem drawFrame_ok {v : Snap} {port : SpritePort} {sf : Surface} (h : drawFrame v port = .ok sf) :
    (sf.w, sf.h) = resolution v.config v.reg ∧ sf.wf := by
  unfold drawFrame at h
  split at h
  · obtain ⟨hw, hh, hwf⟩ := drawLayers_ok (buildSurface_wf _ _ _) h
    exact ⟨by rw [hw, hh]; rfl, hwf⟩
  · cases h
    exact ⟨rfl, buildSurface_wf _ _ _⟩

/-- What DRAWFRAME can do to a state: only the surface changes. -/
theorem drawFrameOn_ok {s t : State} (h : drawFrameOn s = .ok t) :
    ∃ sf, drawFrame s.snap s.sprite = .ok sf ∧ t = s.setSurface sf := by
  unfold drawFrameOn at h
  split at h
  · cases h
    exact ⟨_, ‹_›, rfl⟩
  · cases h

end Sys2Proof.Machine
end

