-- ==== Sys2Proof/Laws/Control.lean ====
section
/-! SUPPORT. What an operation that ends normally can do to the state, said once: later proofs about every operation split this list
and unfold no meaning. -/

namespace Sys2Proof.Machine

/-- Every way in which an operation can end normally. -/
theorem exec_next_cases {i : Instr} {s t : State} (h : exec i s = .next t) :
    (onlyAnswers i = true ∧ ∃ v, t = s.reply v)
    ∨ (∃ off v, registerWritten i = some off ∧ offsetOk off = true
        ∧ t = afterRegWrite off (s.setBank (regPut s.reg off v)))
    ∨ (isVramWrite i = true ∧ ∃ a bs, accessOk s.config.vramBytes a bs.length = true
        ∧ t = s.setVram (writeBytes s.vram s.config.vramBytes a bs))
    ∨ (isCramWrite i = true ∧ ∃ a bs, accessOk cramBytes a bs.length = true
        ∧ (bs.length = 1 ∨ bs.length = 2 ∨ bs.length = 4)
        ∧ t = s.setCram (if cramModeOf s.config s.reg = .legacy
            then writeBytes (writeBytes s.cram cramBytes a bs) cramBytes (shadowAddr a) bs
            else writeBytes s.cram cramBytes a bs))
    ∨ (i = .hbin ∧ t = (s.setBank (setFlag s.reg s.config.regmap.hblank)).emit (.notify .hbin))
    ∨ (i = .hbout ∧ t = (s.setBank (clrFlag s.reg s.config.regmap.hblank)).emit (.notify .hbout))
    ∨ (i = .vbin false ∧ t = (s.setBank (setFlag s.reg s.config.regmap.vblank)).emit (.notify .vbin))
    ∨ (i = .vbin true
        ∧ t = ((s.setBank (setFlag s.reg s.config.regmap.vblank)).emit (.notify .vbin)).emit (.notifySlave .slaveVbin))
    ∨ (i = .vbout ∧ ∃ sf, drawFrame (vboutFlags s).snap s.sprite = .ok sf
        ∧ t = (presentSurface ((vboutFlags s).setSurface sf)).emit (.notify .vbout))
    ∨ (i = .drawframe ∧ ∃ sf, drawFrame s.snap s.sprite = .ok sf ∧ t = s.setSurface sf)
    ∨ (∃ k l sf, i = .layerDraw k ∧ layerOfIndex k = some l ∧ drawLayer s.snap s.sprite l s.surface = .ok sf
        ∧ t = s.setSurface sf)
    ∨ (i = .present ∧ t = presentSurface s) := by
  by_cases ha : onlyAnswers i = true
  · refine .inl ⟨ha, ?_⟩
    cases i <;> simp only [exec] at h
    all_goals first
      | (simp [onlyAnswers, registerWritten, isVramWrite, isCramWrite, isEdge, draws, presents] at ha; done)
      | (cases h; exact ⟨_, rfl⟩)
      | (exact ⟨_, (hostRegRead_next.mp h).2⟩)
      | (exact ⟨_, (hostVramRead_next.mp h).2⟩)
      | (exact ⟨_, (hostCramRead_next.mp h).2⟩)
      | (simp only [execLayerInit] at h; split at h <;> [(cases h; exact ⟨_, rfl⟩); cases h])
      | (simp only [execTilePixel, execLayerPixel, execRotPixel, replyPixel] at h
         split at h <;> [(cases h; exact ⟨_, rfl⟩); cases h])
      | (simp only [execGetPri, execInnerPri] at h; obtain ⟨l, -, h⟩ := withLayer_next.mp h; cases h; exact ⟨_, rfl⟩)
  right
  cases i <;> first | (simp [onlyAnswers, registerWritten, isVramWrite, isCramWrite, isEdge, draws, presents] at ha; done) | skip
  case hbin => cases h; simp [registerWritten]
  case hbout => cases h; simp [registerWritten]
  case vbin b => cases h; cases b <;> simp [registerWritten, isVramWrite, isCramWrite]
  case vbout =>
    simp only [exec, execVbout] at h
    split at h
    · rename_i t' h'
      cases h
      obtain ⟨sf, h1, rfl⟩ := drawFrameOn_ok h'
      simp [registerWritten, isVramWrite, isCramWrite]
      exact ⟨sf, h1, rfl⟩
    · cases h
  case drawframe =>
    simp only [exec, execDrawframe] at h
    split at h
    · rename_i t' h'
      cases h
      obtain ⟨sf, h1, rfl⟩ := drawFrameOn_ok h'
      simp [registerWritten, isVramWrite, isCramWrite]
      exact ⟨sf, h1, rfl⟩
    · cases h
  case present => cases h; simp [registerWritten, isVramWrite, isCramWrite]
  case layerDraw k =>
    simp only [exec, execLayerDraw] at h
    obtain ⟨l, hl, h⟩ := withLayer_next.mp h
    split at h
    · cases h; simp [registerWritten, isVramWrite, isCramWrite]; exact ⟨l, hl, _, by assumption, rfl⟩
    · cases h
  case vramwrB => exact .inr (.inl ⟨rfl, _, _, hostVramWrite_next.mp h⟩)
  case vramwrW => exact .inr (.inl ⟨rfl, _, _, hostVramWrite_next.mp h⟩)
  case vramwrL => exact .inr (.inl ⟨rfl, _, _, hostVramWrite_next.mp h⟩)
  case cramwrB => have := hostCramWrite_next.mp h; exact .inr (.inr (.inl ⟨rfl, _, _, this.1, by simp, this.2⟩))
  case cramwrW => have := hostCramWrite_next.mp h; exact .inr (.inr (.inl ⟨rfl, _, _, this.1, by simp [bytesOf16], this.2⟩))
  case cramwrL => have := hostCramWrite_next.mp h; exact .inr (.inr (.inl ⟨rfl, _, _, this.1, by simp [bytesOf32], this.2⟩))
  all_goals exact .inl ⟨_, _, rfl, hostRegWrite_next.mp h⟩

/-- A step takes the event at the head of the inbox, or leaves the state as it is. -/
theorem step_next_cases {s t : State} (h : step s = .next t) :
    (s.inbox = [] ∧ t = s)
      ∨ ∃ inp rest i, s.inbox = inp :: rest ∧ decode inp.w0 inp.w1 = .ok i ∧ exec i (s.accept inp rest) = .next t := by
  simp only [step, runNext] at h
  split at h
  · cases h
    exact .inl ⟨by assumption, rfl⟩
  · simp only [runInput] at h
    split at h
    · exact .inr ⟨_, _, _, by assumption, by assumption, h⟩
    · cases h

end Sys2Proof.Machine
end

