-- ==== Sys2Proof/Laws/Encoding.lean ====
section
/-! SUPPORT. Laws of the event encoding: the fields of a header word that was put together from fields, the header that its own
fields put together, and what the form of a register write carries. -/

namespace Sys2Proof

theorem headerWord_toNat (cls : BitVec 4) (size : BitVec 2) (b24 : Bool) (addr : BitVec 24) :
    (headerWord cls size b24 addr).toNat
      = cls.toNat * 2 ^ 28 + size.toNat * 2 ^ 26 + b24.toNat * 2 ^ 24 + addr.toNat := by
  simp only [headerWord, BitVec.toNat_append, BitVec.toNat_ofBool, ← Nat.shiftLeft_add_eq_or_of_lt addr.isLt,
    ← Nat.shiftLeft_add_eq_or_of_lt (BitVec.isLt 0#1), ← Nat.shiftLeft_add_eq_or_of_lt size.isLt]
  rw [← Nat.shiftLeft_add_eq_or_of_lt (b := b24.toNat) (by cases b24 <;> decide)]
  simp only [Nat.shiftLeft_eq]
  have : (0#1).toNat = 0 := rfl
  omega

/-- The class field of a header. -/
theorem headerWord_cls (cls : BitVec 4) (size : BitVec 2) (b24 : Bool) (addr : BitVec 24) :
    (headerWord cls size b24 addr).extractLsb' 28 4 = cls := by
  apply BitVec.eq_of_toNat_eq
  have h1 := cls.isLt; have h2 := size.isLt; have h3 := addr.isLt
  have h4 : b24.toNat ≤ 1 := by cases b24 <;> decide
  rw [BitVec.extractLsb'_toNat, headerWord_toNat, Nat.shiftRight_eq_div_pow]
  omega

/-- The size field of a header. -/
theorem headerWord_size (cls : BitVec 4) (size : BitVec 2) (b24 : Bool) (addr : BitVec 24) :
    (headerWord cls size b24 addr).extractLsb' 26 2 = size := by
  apply BitVec.eq_of_toNat_eq
  have h1 := cls.isLt; have h2 := size.isLt; have h3 := addr.isLt
  have h4 : b24.toNat ≤ 1 := by cases b24 <;> decide
  rw [BitVec.extractLsb'_toNat, headerWord_toNat, Nat.shiftRight_eq_div_pow]
  omega

/-- The offset or address field of a header. -/
theorem headerWord_addr (cls : BitVec 4) (size : BitVec 2) (b24 : Bool) (addr : BitVec 24) :
    (headerWord cls size b24 addr).extractLsb' 0 24 = addr := by
  apply BitVec.eq_of_toNat_eq
  have h1 := cls.isLt; have h2 := size.isLt; have h3 := addr.isLt
  have h4 : b24.toNat ≤ 1 := by cases b24 <;> decide
  rw [BitVec.extractLsb'_toNat, headerWord_toNat, Nat.shiftRight_eq_div_pow]
  omega

/-- Bit 25 of a header is 0. -/
theorem headerWord_bit25 (cls : BitVec 4) (size : BitVec 2) (b24 : Bool) (addr : BitVec 24) :
    (headerWord cls size b24 addr).getLsbD 25 = false := by
  have h1 := cls.isLt; have h2 := size.isLt; have h3 := addr.isLt
  have h4 : b24.toNat ≤ 1 := by cases b24 <;> decide
  rw [BitVec.getLsbD, Nat.testBit, headerWord_toNat, Nat.shiftRight_eq_div_pow, Nat.and_comm, Nat.and_one_is_mod]
  simp only [bne_eq_false_iff_eq]
  omega

/-- Bit 24 of a header. -/
theorem headerWord_bit24 (cls : BitVec 4) (size : BitVec 2) (b24 : Bool) (addr : BitVec 24) :
    (headerWord cls size b24 addr).getLsbD 24 = b24 := by
  have h1 := cls.isLt; have h2 := size.isLt; have h3 := addr.isLt
  rw [BitVec.getLsbD, Nat.testBit, headerWord_toNat, Nat.shiftRight_eq_div_pow, Nat.and_comm, Nat.and_one_is_mod]
  cases b24
  · simp only [bne_eq_false_iff_eq, Bool.toNat_false]; omega
  · simp only [bne_iff_ne, ne_eq, Bool.toNat_true]; omega

/-- Decoding a header that was put together from fields reads those fields. -/
theorem decode_headerWord (cls : BitVec 4) (size : BitVec 2) (b24 : Bool) (addr : BitVec 24) (w1 : Word32) :
    decode (headerWord cls size b24 addr) w1 = decodeFields cls size b24 addr w1 := by
  rw [decode, headerWord_bit25, headerWord_cls, headerWord_size, headerWord_bit24, headerWord_addr]
  rfl

/-- A header with bit 25 clear is put together from its own fields. -/
theorem headerWord_fields (w : Word32) (h : w.getLsbD 25 = false) :
    headerWord (w.extractLsb' 28 4) (w.extractLsb' 26 2) (w.getLsbD 24) (w.extractLsb' 0 24) = w := by
  apply BitVec.eq_of_toNat_eq
  have hw := w.isLt
  rw [BitVec.getLsbD, Nat.testBit, Nat.shiftRight_eq_div_pow, Nat.and_comm, Nat.and_one_is_mod] at h
  simp only [bne_eq_false_iff_eq] at h
  rw [headerWord_toNat]
  simp only [BitVec.extractLsb'_toNat, Nat.shiftRight_eq_div_pow]
  have h24 : (w.getLsbD 24).toNat = w.toNat / 2 ^ 24 % 2 := by
    rw [BitVec.getLsbD, Nat.testBit, Nat.shiftRight_eq_div_pow, Nat.and_comm, Nat.and_one_is_mod]
    rcases Nat.mod_two_eq_zero_or_one (w.toNat / 2 ^ 24) with h' | h' <;> rw [h'] <;> rfl
  rw [h24]
  omega

/-- The forms of a register write, by offset. -/
theorem regwrForm_cases (off : BitVec 24) (val : Word16) :
    (off = 0x000#24 ∧ regwrForm off val = .regwrRes val) ∨ (off = 0x00E#24 ∧ regwrForm off val = .regwrRammode val)
      ∨ (off = 0x0F8#24 ∧ regwrForm off val = .regwrPri0F8 val) ∨ (off = 0x0FA#24 ∧ regwrForm off val = .regwrPri0FA val)
      ∨ (off = 0x0FC#24 ∧ regwrForm off val = .regwrPri0FC val)
      ∨ (refinedOffset off = false ∧ regwrForm off val = .regwr off val) := by
  unfold regwrForm refinedOffset
  by_cases h1 : off = 0x000#24
  · simp [h1]
  by_cases h2 : off = 0x00E#24
  · simp [h2]
  by_cases h3 : off = 0x0F8#24
  · simp [h3]
  by_cases h4 : off = 0x0FA#24
  · simp [h4]
  by_cases h5 : off = 0x0FC#24
  · simp [h5]
  simp [h1, h2, h3, h4, h5]

/-- The low half of a value that was widened is the value. -/
theorem extractLsb'_setWidth {n : Nat} (v : BitVec n) (h : n ≤ 32) : (v.setWidth 32).extractLsb' 0 n = v := by
  apply BitVec.eq_of_toNat_eq
  have h1 := v.isLt
  have h2 : 2 ^ n ≤ 2 ^ 32 := Nat.pow_le_pow_right (by decide) h
  rw [BitVec.extractLsb'_toNat, BitVec.toNat_setWidth, Nat.shiftRight_zero, Nat.mod_eq_of_lt (by omega : v.toNat < 2 ^ 32), Nat.mod_eq_of_lt h1]

end Sys2Proof
end

