-- ==== Sys2Proof/Laws/Invariant.lean ====
section
/-! SUPPORT. The invariant of Safety.lean is kept by each update of the state that the operations are made of. -/

namespace Sys2Proof.Machine

variable {s : State}

theorem Inv.reply (h : Inv s) (v : Answer) : Inv (s.reply v) := ⟨h.1, h.2, h.3, h.4, h.5, h.6, h.7⟩

theorem Inv.emit (h : Inv s) (o : Output) : Inv (s.emit o) := ⟨h.1, h.2, h.3, h.4, h.5, h.6, h.7⟩

theorem Inv.accept (h : Inv s) (inp : Input) (rest : List Input) : Inv (s.accept inp rest) :=
  ⟨h.1, h.2, h.3, h.4, h.5, h.6, h.7⟩

theorem Config.vramBytes_pos {c : Config} (h : c.wf = true) : 0 < c.vramBytes := by
  simp only [Config.wf, Bool.and_eq_true, beq_iff_eq] at h
  have : c.vramBytes = 2 ^ c.vramBytes.log2 := by tauto
  rw [this]
  positivity

theorem Inv.writeVram (h : Inv s) (addr : Nat) (bytes : List Byte) :
    Inv (s.setVram (writeBytes s.vram s.config.vramBytes addr bytes)) :=
  ⟨h.1, writeBytes_wf _ _ _ _ h.2, writeBytes_within _ (Config.vramBytes_pos h.1) _ _ _ h.3, h.4, h.5, h.6, h.7⟩

theorem Inv.writeCram (h : Inv s) (addr : Nat) (bytes : List Byte) :
    Inv (s.setCram (writeBytes s.cram cramBytes addr bytes)) :=
  ⟨h.1, h.2, h.3, writeBytes_wf _ _ _ _ h.4, writeBytes_within _ (by decide) _ _ _ h.5, h.6, h.7⟩

/-- A store to a register other than 0x000. -/
theorem Inv.putOther (h : Inv s) {off : Nat} (v : Word16) (ho : off / 2 ≠ 0) : Inv (s.setBank (regPut s.reg off v)) :=
  ⟨h.1, h.2, h.3, h.4, h.5, h.6, by
    rw [State.setBank_surface, State.setBank_config, State.setBank_reg, resolution_regPut_other h.1 _ _ ho]; exact h.7⟩

/-- A surface of the decoded resolution in place of the one there. -/
theorem Inv.setSurface (h : Inv s) {sf : Surface} (hwf : sf.wf) (hsize : (sf.w, sf.h) = (s.surface.w, s.surface.h)) :
    Inv (s.setSurface sf) :=
  ⟨h.1, h.2, h.3, h.4, h.5, hwf, hsize.trans h.7⟩

/-- A write of the resolution register, with its trigger. -/
theorem Inv.putResolution (h : Inv s) (v : Word16) : Inv (afterResolutionWrite (s.setBank (regPut s.reg 0 v))) := by
  rcases afterResolutionWrite_cases (s.setBank (regPut s.reg 0 v)) with ⟨hw, hh, e⟩ | ⟨-, e⟩ <;> rw [e]
  · exact ⟨h.1, h.2, h.3, h.4, h.5, h.6, Prod.ext hw.symm hh.symm⟩
  · exact ⟨h.1, h.2, h.3, h.4, h.5, trivial, rfl⟩

end Sys2Proof.Machine
end

