-- ==== Sys2Proof/Laws/Layer.lean ====
section
/-! SUPPORT. What a well-formed layer record says, and what the geometry of a map (R126), the choice of a pattern-name form (R138)
and the draw order's sort (R190) come to. -/

namespace Sys2Proof

/-- The ranges of a well-formed record (R25), one by one. -/
theorem LayerCfg.wf_ranges {g : LayerCfg} (h : g.wf = true) :
    (g.planeW = 1 ∨ g.planeW = 2) ∧ (g.planeH = 1 ∨ g.planeH = 2) ∧ (g.mapWH = 2 ∨ g.mapWH = 4)
      ∧ (g.patternDataSize = 1 ∨ g.patternDataSize = 2) ∧ (g.patternWH = 1 ∨ g.patternWH = 2)
      ∧ g.pageWH = 64 / g.patternWH ∧ g.planeSel.length = g.mapWH * g.mapWH ∧ g.scrollX ≤ 2047 ∧ g.scrollY ≤ 2047
      ∧ (g.bmW = 512 ∨ g.bmW = 1024) ∧ (g.bmH = 256 ∨ g.bmH = 512) ∧ g.rot.isSome = (g.layer == .rbg0) := by
  simp only [LayerCfg.wf, Bool.and_eq_true, Bool.or_eq_true, beq_iff_eq, decide_eq_true_eq] at h
  obtain ⟨⟨⟨⟨⟨⟨⟨⟨⟨⟨⟨⟨⟨⟨⟨⟨⟨⟨⟨h1, h2⟩, h3⟩, h4⟩, h5⟩, h6⟩, h7⟩, h8⟩, h9⟩, -⟩, -⟩, -⟩, -⟩, -⟩, h15⟩, h16⟩, -⟩, -⟩, -⟩, h20⟩ := h
  exact ⟨h1, h2, h3, h4, h5, h6, h7, h8, h9, h15, h16, h20⟩

/-- A rotation record stands on the rotation layer alone (R26). -/
theorem LayerCfg.wf_rot {g : LayerCfg} (h : g.wf = true) : g.rot.isSome = true ↔ g.layer = .rbg0 := by
  rw [(LayerCfg.wf_ranges h).2.2.2.2.2.2.2.2.2.2.2]
  cases g.layer <;> decide

namespace Machine

/-- A page is 512 pixels per side for either pattern width (R126). -/
theorem pagePx_eq {g : LayerCfg} (h : g.wf = true) : pagePx g = 512 := by
  obtain ⟨-, -, -, -, hp, hg, -⟩ := LayerCfg.wf_ranges h
  rcases hp with hp | hp <;> simp [pagePx, patPx, cellPx, hg, hp]

/-- A plane across. -/
theorem planePxW_eq {g : LayerCfg} (h : g.wf = true) : planePxW g = g.planeW * 512 := by simp [planePxW, pagePx_eq h]

/-- A plane down. -/
theorem planePxH_eq {g : LayerCfg} (h : g.wf = true) : planePxH g = g.planeH * 512 := by simp [planePxH, pagePx_eq h]

/-- The one refusal of the choice of a pattern-name form. -/
theorem pnFormOf_error {g : LayerCfg} {r : Refusal} (h : pnFormOf g = .error r) :
    r = .reservedAuxMode ∧ g.patternDataSize = 1 ∧ 2 ≤ g.auxMode := by
  by_cases hd : g.patternDataSize = 1
  · rcases ha : g.auxMode with _ | _ | n <;> simp [pnFormOf, hd, ha] at h
    exact ⟨h.symm, hd, by omega⟩
  · simp [pnFormOf, hd] at h

/-- A form is chosen where the pattern names have two words or auxMode is not reserved. -/
theorem pnFormOf_ok {g : LayerCfg} (h : g.patternDataSize ≠ 1 ∨ g.auxMode ≤ 1) : ∃ f, pnFormOf g = .ok f := by
  rcases hf : pnFormOf g with r | f
  · obtain ⟨-, h1, h2⟩ := pnFormOf_error hf
    omega
  · exact ⟨f, rfl⟩

/-- A layer put into a list. -/
theorem insertLayer_perm (le : Layer → Layer → Bool) (l : Layer) (ls : List Layer) : (insertLayer le l ls).Perm (l :: ls) := by
  induction ls with
  | nil => exact .refl _
  | cons m rest ih =>
    unfold insertLayer
    split
    · exact .refl _
    · exact (ih.cons m).trans (.swap l m rest)

/-- Sorting moves layers and neither adds nor drops one. -/
theorem sortLayers_perm (le : Layer → Layer → Bool) (ls : List Layer) : (sortLayers le ls).Perm ls := by
  induction ls with
  | nil => exact .refl _
  | cons l rest ih => exact (insertLayer_perm le l _).trans (ih.cons l)

/-- A layer put into a sorted list leaves it sorted. -/
theorem insertLayer_sorted {le : Layer → Layer → Bool} (total : ∀ a b, le a b = true ∨ le b a = true)
    (trans : ∀ a b c, le a b = true → le b c = true → le a c = true) (l : Layer) {ls : List Layer}
    (h : ls.Pairwise (fun a b => le a b = true)) : (insertLayer le l ls).Pairwise (fun a b => le a b = true) := by
  induction ls with
  | nil => simp [insertLayer]
  | cons m rest ih =>
    obtain ⟨hm, hr⟩ := List.pairwise_cons.1 h
    unfold insertLayer
    split
    · rename_i hlm
      exact List.pairwise_cons.2 ⟨fun x hx => by
        rcases List.mem_cons.1 hx with rfl | hx
        · exact hlm
        · exact trans _ _ _ hlm (hm x hx), h⟩
    · rename_i hlm
      refine List.pairwise_cons.2 ⟨fun x hx => ?_, ih hr⟩
      rcases List.mem_cons.1 ((insertLayer_perm le l rest).mem_iff.1 hx) with rfl | hx
      · exact (total m x).resolve_right hlm
      · exact hm x hx

/-- The sort of a total and transitive order is sorted. -/
theorem sortLayers_sorted {le : Layer → Layer → Bool} (total : ∀ a b, le a b = true ∨ le b a = true)
    (trans : ∀ a b c, le a b = true → le b c = true → le a c = true) (ls : List Layer) :
    (sortLayers le ls).Pairwise (fun a b => le a b = true) := by
  induction ls with
  | nil => simp [sortLayers]
  | cons l rest ih => exact insertLayer_sorted total trans l ih

end Machine

end Sys2Proof
end

