-- ==== Sys2Proof/Laws/PerInstr.lean ====
section
/-! SUPPORT. The per-instruction family named in LAWS.json. `ReservedBit`: in the encoding of an operation, where it has one, bit
25 of the header is 0 (R60: `W0[25]` = 0); an operation without an encoding has no header to speak of. -/

namespace Sys2Proof.Laws.ReservedBit

/-- R60: `W0[25]` = 0. -/
def Statement (i : Instr) : Prop :=
  ∀ w, encode i = some w → w.1.getLsbD 25 = false

/-- An event: its header was put together from fields. -/
theorem of_header {i : Instr} {cls : BitVec 4} {size : BitVec 2} {b24 : Bool} {addr : BitVec 24} {w1 : Word32}
    (h : encode i = some (headerWord cls size b24 addr, w1)) : Statement i := by
  intro w hw
  rw [h] at hw
  cases hw
  exact headerWord_bit25 cls size b24 addr

/-- A data format or an internal operation: it has no encoding. -/
theorem of_none {i : Instr} (h : encode i = none) : Statement i := by
  intro w hw
  rw [h] at hw
  cases hw

theorem regwr (off : BitVec 24) (val : Word16) : Statement (.regwr off val) := of_header rfl
theorem regwrRes (val : Word16) : Statement (.regwrRes val) := of_header rfl
theorem regwrRammode (val : Word16) : Statement (.regwrRammode val) := of_header rfl
theorem regwrPri0F8 (val : Word16) : Statement (.regwrPri0F8 val) := of_header rfl
theorem regwrPri0FA (val : Word16) : Statement (.regwrPri0FA val) := of_header rfl
theorem regwrPri0FC (val : Word16) : Statement (.regwrPri0FC val) := of_header rfl
theorem regrd (off : BitVec 24) : Statement (.regrd off) := of_header rfl
theorem vramwrB (addr : BitVec 24) (val : Byte) : Statement (.vramwrB addr val) := of_header rfl
theorem vramwrW (addr : BitVec 24) (val : Word16) : Statement (.vramwrW addr val) := of_header rfl
theorem vramwrL (addr : BitVec 24) (val : Word32) : Statement (.vramwrL addr val) := of_header rfl
theorem vramrdB (addr : BitVec 24) : Statement (.vramrdB addr) := of_header rfl
theorem vramrdW (addr : BitVec 24) : Statement (.vramrdW addr) := of_header rfl
theorem vramrdL (addr : BitVec 24) : Statement (.vramrdL addr) := of_header rfl
theorem cramwrB (addr : BitVec 24) (val : Byte) : Statement (.cramwrB addr val) := of_header rfl
theorem cramwrW (addr : BitVec 24) (val : Word16) : Statement (.cramwrW addr val) := of_header rfl
theorem cramwrL (addr : BitVec 24) (val : Word32) : Statement (.cramwrL addr val) := of_header rfl
theorem cramrdB (addr : BitVec 24) : Statement (.cramrdB addr) := of_header rfl
theorem cramrdW (addr : BitVec 24) : Statement (.cramrdW addr) := of_header rfl
theorem cramrdL (addr : BitVec 24) : Statement (.cramrdL addr) := of_header rfl
theorem hbin : Statement .hbin := of_header rfl
theorem hbout : Statement .hbout := of_header rfl
theorem vbin (slaveActive : Bool) : Statement (.vbin slaveActive) := of_header rfl
theorem vbout : Statement .vbout := of_header rfl
theorem fmtPn1A0 (w : Word16) : Statement (.fmtPn1A0 w) := of_none rfl
theorem fmtPn1A1 (w : Word16) : Statement (.fmtPn1A1 w) := of_none rfl
theorem fmtPn2 (w : Word32) : Statement (.fmtPn2 w) := of_none rfl
theorem fmtSupp (s : BitVec 10) : Statement (.fmtSupp s) := of_none rfl
theorem fmtPixD0 (w : Word16) : Statement (.fmtPixD0 w) := of_none rfl
theorem fmtPixD1 (w : Word16) : Statement (.fmtPixD1 w) := of_none rfl
theorem fmtPixD2 (w : Word16) : Statement (.fmtPixD2 w) := of_none rfl
theorem fmtPixD3 (w : Word16) : Statement (.fmtPixD3 w) := of_none rfl
theorem fmtPixD4 (w : Word32) : Statement (.fmtPixD4 w) := of_none rfl
theorem fmtColor1 (w : Word16) : Statement (.fmtColor1 w) := of_none rfl
theorem fmtColofs (w : Word16) : Statement (.fmtColofs w) := of_none rfl
theorem cramMode : Statement .cramMode := of_none rfl
theorem resolveLegacy (index : Nat) (alpha : Byte) (bankSel : Nat) : Statement (.resolveLegacy index alpha bankSel) := of_none rfl
theorem resolveWide (index : Nat) (alpha : Byte) (bankSel : Nat) : Statement (.resolveWide index alpha bankSel) := of_none rfl
theorem resolveExt (index : Nat) (alpha : Byte) (bankSel : Nat) : Statement (.resolveExt index alpha bankSel) := of_none rfl
theorem expand1 (w : Word16) : Statement (.expand1 w) := of_none rfl
theorem expand2 (w1 w2 : Word16) : Statement (.expand2 w1 w2) := of_none rfl
theorem layerInit (l : Bg) : Statement (.layerInit l) := of_none rfl
theorem scrollCoord (cfg : LayerCfg) (sx sy : Nat) : Statement (.scrollCoord cfg sx sy) := of_none rfl
theorem planeAddr (cfg : LayerCfg) (k : Nat) : Statement (.planeAddr cfg k) := of_none rfl
theorem pnAddr (cfg : LayerCfg) (pageAddr xg yg : Nat) : Statement (.pnAddr cfg pageAddr xg yg) := of_none rfl
theorem pnDec1wA0W1 (pn : Word16) (s : BitVec 10) (depth : Depth) : Statement (.pnDec1wA0W1 pn s depth) := of_none rfl
theorem pnDec1wA0W2 (pn : Word16) (s : BitVec 10) (depth : Depth) : Statement (.pnDec1wA0W2 pn s depth) := of_none rfl
theorem pnDec1wA1W1 (pn : Word16) (s : BitVec 10) (depth : Depth) : Statement (.pnDec1wA1W1 pn s depth) := of_none rfl
theorem pnDec1wA1W2 (pn : Word16) (s : BitVec 10) (depth : Depth) : Statement (.pnDec1wA1W2 pn s depth) := of_none rfl
theorem pnDec2w (w1 w2 : Word16) : Statement (.pnDec2w w1 w2) := of_none rfl
theorem charFin (cfg : LayerCfg) (charNo : BitVec 15) : Statement (.charFin cfg charNo) := of_none rfl
theorem tilePixel (cfg : LayerCfg) (x y : Int) : Statement (.tilePixel cfg x y) := of_none rfl
theorem pixFetchD0 (cfg : LayerCfg) (base : Nat) (palAddr : BitVec 7) (px py : Nat) : Statement (.pixFetchD0 cfg base palAddr px py) := of_none rfl
theorem pixFetchD1 (cfg : LayerCfg) (base : Nat) (palAddr : BitVec 7) (px py : Nat) : Statement (.pixFetchD1 cfg base palAddr px py) := of_none rfl
theorem pixFetchD2 (cfg : LayerCfg) (base : Nat) (palAddr : BitVec 7) (px py : Nat) : Statement (.pixFetchD2 cfg base palAddr px py) := of_none rfl
theorem pixFetchD3 (cfg : LayerCfg) (base : Nat) (palAddr : BitVec 7) (px py : Nat) : Statement (.pixFetchD3 cfg base palAddr px py) := of_none rfl
theorem pixFetchD4 (cfg : LayerCfg) (base : Nat) (palAddr : BitVec 7) (px py : Nat) : Statement (.pixFetchD4 cfg base palAddr px py) := of_none rfl
theorem bitmapPixel (cfg : LayerCfg) (x y : Int) : Statement (.bitmapPixel cfg x y) := of_none rfl
theorem layerPixel (cfg : LayerCfg) (sx sy : Nat) : Statement (.layerPixel cfg sx sy) := of_none rfl
theorem rotAddr : Statement .rotAddr := of_none rfl
theorem rotLoad : Statement .rotLoad := of_none rfl
theorem rotCoord (rot : RotParams) (hcnt vcnt : Int) : Statement (.rotCoord rot hcnt vcnt) := of_none rfl
theorem rotPixel (cfg : LayerCfg) (sx sy : Nat) : Statement (.rotPixel cfg sx sy) := of_none rfl
theorem getPri (index : Nat) : Statement (.getPri index) := of_none rfl
theorem innerPri (index : Nat) : Statement (.innerPri index) := of_none rfl
theorem sort : Statement .sort := of_none rfl
theorem colofs (p : Pixel) (cr cg cb : Int) : Statement (.colofs p cr cg cb) := of_none rfl
theorem blend (dst src : Pixel) : Statement (.blend dst src) := of_none rfl
theorem layerDraw (index : Nat) : Statement (.layerDraw index) := of_none rfl
theorem drawframe : Statement .drawframe := of_none rfl
theorem present : Statement .present := of_none rfl

end Sys2Proof.Laws.ReservedBit
end

