-- ==== Sys2Proof/Tests/Slice0.lean ====
section
/-! SUPPORT. Tests: ill-formed terms that the well-formedness checks refuse, words written out from R60 to R71 that decode to what
they stand for, vectors of 95_test_vectors.md (each test names its vector), and for every obligation with hypotheses a concrete
state and operands that meet them. -/

namespace Sys2Proof.Machine.Tests

open Sys2Proof.Claims

set_option Elab.async false

/-! ## Small states -/

/-- The launch state with registers written: pairs of an offset and a value. -/
def regs (l : List (Nat × Nat)) : State :=
  { State.reset with reg := l.foldl (fun b p => regPut b p.1 (BitVec.ofNat 16 p.2)) State.reset.reg }

/-- What an operation answers from a state. -/
def said (i : Instr) (s : State) : Option Answer :=
  match exec i s with
  | .next t => t.answers.getLast?
  | _ => none

/-- The state after an operation; the state before it where it does not end normally. -/
def after (i : Instr) (s : State) : State :=
  match exec i s with
  | .next t => t
  | _ => s

/-- The fault that an outcome is. -/
def faultOf : Result → Option Fault
  | .fault f => some f
  | _ => none

/-- The refusal that an outcome is. -/
def refusalOf : Result → Option Refusal
  | .refused r => some r
  | _ => none

/-- The status register after an operation. -/
def statusAfter (i : Instr) (s : State) : Word16 := regGet (after i s).reg 0x004

/-- A state with some bytes of video memory. -/
def withVram (m : Memory) (s : State) : State := s.setVram m

/-- A state with some bytes of colour memory. -/
def withCram (m : Memory) (s : State) : State := s.setCram m

/-- The bytes of 16-bit words, each at its address: pairs of an address and a word, addresses rising. -/
def words (l : List (Nat × Nat)) : Memory :=
  l.flatMap (fun p => [(p.1, BitVec.ofNat 8 (p.2 / 256)), (p.1 + 1, BitVec.ofNat 8 p.2)])

/-- The record of NBG0 at reset. -/
def plain : LayerCfg := layerRecord State.reset.snap .nbg0 .d0

/-- The record of the rotation layer at reset. -/
def plainRot : LayerCfg := layerRecord State.reset.snap .rbg0 .d0

/-- A sprite port that answers one opaque pixel at the origin, at priority 5. -/
def oneSprite : SpritePort := { enable := true, priority := 5, pixels := [((0, 0), { r := 1, g := 2, b := 3, a := 0xFF })] }

/-- The identity setting of the rotation formula (95_test_vectors.md T4, corrected). -/
def identityRot : RotParams :=
  { xst := 0, yst := 0, zst := 0, deltaXst := 0, deltaYst := 1, deltaX := 1, deltaY := 0,
    matA := 1, matB := 0, matC := 0, matD := 0, matE := 1, matF := 0, px := 0, py := 0, pz := 0, cx := 0, cy := 0, cz := 0,
    mx := 0, my := 0, kx := 1, ky := 1 }

/-! ## Well-formedness: one ill-formed term for each check -/

/-- A field that lies in one register and has a width no rule gives. -/
def wide : Field := { off := 0x020, lsb := 0, width := 16 }

theorem test_wf_default : Config.default.wf = true ∧ plain.wf = true ∧ plainRot.wf = true := by decide +kernel

theorem test_wf_field : ([{ off := 1, lsb := 0, width := 1 }, { off := 0x200, lsb := 0, width := 1 },
    { off := 0, lsb := 15, width := 2 }] : List Field).all (fun f => !f.wf) = true
    ∧ wide.wf = true ∧ wide.wfWidth 3 = false ∧ wide.wfAtMost 3 = false := by decide

theorem test_wf_layer_fields : ([{ defaultNbg0 with on := wide }, { defaultNbg0 with tpdis := wide },
    { defaultNbg0 with chsz := wide }, { defaultNbg0 with bmen := some wide }, { defaultNbg0 with bmsz := some wide },
    { defaultNbg0 with chcn := wide }, { defaultNbg0 with pnb := wide }, { defaultNbg0 with cnsm := wide },
    { defaultNbg0 with supp := wide }, { defaultNbg0 with bmp := some wide }, { defaultNbg0 with plsz := wide },
    { defaultNbg0 with mpof := wide }, { defaultNbg0 with mp := [wide] }, { defaultNbg0 with scx := some wide },
    { defaultNbg0 with scy := some wide }, { defaultNbg0 with caos := wide }, { defaultNbg0 with pri := wide },
    { defaultNbg0 with ccen := wide }, { defaultNbg0 with ccrt := wide }, { defaultNbg0 with coen := wide },
    { defaultNbg0 with cosl := wide }] : List LayerFields).all (fun f => !f.wf) = true := by decide +kernel

/-- The default register map with one layer's fields broken. -/
def brokenLayer : LayerFields := { defaultNbg0 with on := wide }

theorem test_wf_regmap_fields : ([{ defaultRegMap with disp := wide }, { defaultRegMap with lsmd := wide },
    { defaultRegMap with vreso := wide }, { defaultRegMap with hreso := wide }, { defaultRegMap with vblank := wide },
    { defaultRegMap with hblank := wide }, { defaultRegMap with odd := wide }, { defaultRegMap with charext := wide },
    { defaultRegMap with crmd := wide }, { defaultRegMap with rpta := 1 }, { defaultRegMap with rpta := 0x1FE },
    { defaultRegMap with coar := wide }, { defaultRegMap with coag := wide }, { defaultRegMap with coab := wide },
    { defaultRegMap with cobr := wide }, { defaultRegMap with cobg := wide }, { defaultRegMap with cobb := wide },
    { defaultRegMap with nbg0 := brokenLayer }, { defaultRegMap with nbg1 := brokenLayer },
    { defaultRegMap with nbg2 := brokenLayer }, { defaultRegMap with nbg3 := brokenLayer },
    { defaultRegMap with rbg0 := brokenLayer }] : List RegMap).all (fun m => !m.wf) = true := by decide +kernel

theorem test_wf_regmap_places : ([{ defaultRegMap with disp := bitField 0x002 15 },
    { defaultRegMap with lsmd := { off := 0x002, lsb := 6, width := 2 } },
    { defaultRegMap with vreso := { off := 0x002, lsb := 4, width := 2 } },
    { defaultRegMap with hreso := { off := 0x002, lsb := 0, width := 3 } },
    { defaultRegMap with vblank := bitField 0x006 3 }, { defaultRegMap with hblank := bitField 0x006 2 },
    { defaultRegMap with odd := bitField 0x006 1 }, { defaultRegMap with crmd := { off := 0x00C, lsb := 12, width := 2 } },
    { defaultRegMap with vblank := bitField 0x004 2 }, { defaultRegMap with odd := bitField 0x004 3 },
    { defaultRegMap with hblank := bitField 0x004 1 }] : List RegMap).all (fun m => !m.wf) = true := by decide +kernel

/-- The default register map with no plane selectors on one layer. -/
def shortMap (f : LayerFields) : LayerFields := { f with mp := [] }

theorem test_wf_config : ([{ Config.default with regmap := { defaultRegMap with rpta := 1 } },
    { Config.default with vramBytes := 0x80001 }, { Config.default with vramBytes := 0x2000000 },
    { Config.default with hres := [320] }, { Config.default with vres := [] }, { Config.default with interlace := [true] },
    { Config.default with cramModes := [.legacy] }, { Config.default with planeShapes := [(1, 1)] },
    { Config.default with planeShapes := [(1, 1), (3, 1), (1, 1), (2, 2)] },
    { Config.default with planeShapes := [(1, 1), (1, 0), (1, 1), (2, 2)] },
    { Config.default with mapWHScroll := 3 }, { Config.default with mapWHScroll := 4 }, { Config.default with mapWHRot := 2 },
    { Config.default with regmap := { defaultRegMap with nbg0 := shortMap defaultNbg0 } },
    { Config.default with regmap := { defaultRegMap with nbg1 := shortMap defaultNbg1 } },
    { Config.default with regmap := { defaultRegMap with nbg2 := shortMap defaultNbg2 } },
    { Config.default with regmap := { defaultRegMap with nbg3 := shortMap defaultNbg3 } },
    { Config.default with regmap := { defaultRegMap with rbg0 := shortMap defaultRbg0 } },
    { Config.default with innerRankSprite := 4 }] : List Config).all (fun c => !c.wf) = true := by decide +kernel

theorem test_wf_layer_record : ([{ plain with planeW := 3 }, { plain with planeH := 0 }, { plain with mapWH := 3 },
    { plain with patternDataSize := 3 }, { plain with patternWH := 4 }, { plain with pageWH := 63 },
    { plain with planeSel := [0] }, { plain with scrollX := 2048 }, { plain with scrollY := 2048 },
    { plain with mapOffset := 8 }, { plain with planeSel := [256, 0, 0, 0] }, { plain with cramBankSel := 8 },
    { plain with priority := 8 }, { plain with innerRank := 5 }, { plain with bmW := 256 }, { plain with bmH := 1024 },
    { plain with colorOffset := { r := 256, g := 0, b := 0 } }, { plain with colorOffset := { r := 0, g := -257, b := 0 } },
    { plain with colorOffset := { r := 0, g := 0, b := 256 } }, { plain with rot := some identityRot },
    { plainRot with rot := none }] : List LayerCfg).all (fun g => !g.wf) = true := by decide +kernel

theorem test_wf_instr : ([.regwr 0x0F8#24 0#16, .resolveLegacy 0 0 8, .resolveWide 0 0 8, .resolveExt 0 0 8,
    .scrollCoord plainRot 0 0, .planeAddr plain 4, .pnAddr plain 0 512 0, .pnAddr plain 0 0 512,
    .charFin { plain with mapWH := 3 } 0, .tilePixel { plain with bitmap := true } 0 0,
    .pixFetchD0 plain 0 0 8 0, .pixFetchD0 plain 0 0 0 8, .pixFetchD1 plain 0 0 0 0, .pixFetchD2 plain 0 0 0 0,
    .pixFetchD3 plain 0 0 0 0, .pixFetchD4 plain 0 0 0 0, .bitmapPixel plain 0 0, .layerPixel { plain with mapWH := 3 } 0 0,
    .rotPixel plain 0 0, .colofs { r := 0, g := 0, b := 0, a := 0 } 256 0 0] : List Instr).all (fun i => !i.wf) = true := by
  decide +kernel

/-! ## Words written out from the encodings -/

/-- R60, R77 and programs P1, P2, P4, P5: every family of events. -/
theorem test_decode_register_words : decode 0x04000000#32 0x8000#32 = .ok (.regwrRes 0x8000#16)
    ∧ decode 0x0400000E#32 0x2000#32 = .ok (.regwrRammode 0x2000#16) ∧ decode 0x040000F8#32 3#32 = .ok (.regwrPri0F8 3#16)
    ∧ decode 0x040000FA#32 0x200#32 = .ok (.regwrPri0FA 0x200#16) ∧ decode 0x040000FC#32 1#32 = .ok (.regwrPri0FC 1#16)
    ∧ decode 0x04000030#32 0x8000#32 = .ok (.regwr 0x030#24 0x8000#16) ∧ decode 0x14000004#32 0#32 = .ok (.regrd 0x004#24) := by
  decide +kernel

theorem test_decode_memory_words : decode 0x20000010#32 0x12#32 = .ok (.vramwrB 0x10#24 0x12#8)
    ∧ decode 0x24000200#32 0x1200#32 = .ok (.vramwrW 0x200#24 0x1200#16)
    ∧ decode 0x28010010#32 0x10000#32 = .ok (.vramwrL 0x10010#24 0x10000#32)
    ∧ decode 0x30000100#32 0#32 = .ok (.vramrdB 0x100#24) ∧ decode 0x34000102#32 0#32 = .ok (.vramrdW 0x102#24)
    ∧ decode 0x38000100#32 0#32 = .ok (.vramrdL 0x100#24) ∧ decode 0x40000801#32 0xAB#32 = .ok (.cramwrB 0x801#24 0xAB#8)
    ∧ decode 0x44000040#32 0x7C00#32 = .ok (.cramwrW 0x040#24 0x7C00#16)
    ∧ decode 0x48000084#32 0xFF8040#32 = .ok (.cramwrL 0x084#24 0xFF8040#32)
    ∧ decode 0x50000801#32 0#32 = .ok (.cramrdB 0x801#24) ∧ decode 0x54000810#32 0#32 = .ok (.cramrdW 0x810#24)
    ∧ decode 0x58000FFC#32 0#32 = .ok (.cramrdL 0xFFC#24) := by decide +kernel

theorem test_decode_edge_words : decode 0x80000000#32 0#32 = .ok .hbin ∧ decode 0x90000000#32 0#32 = .ok .hbout
    ∧ decode 0xA0000000#32 0#32 = .ok (.vbin false) ∧ decode 0xA1000000#32 0#32 = .ok (.vbin true)
    ∧ decode 0xB0000000#32 0#32 = .ok .vbout := by decide +kernel

/-- Vectors F1, F2. -/
theorem test_decode_refuses : ([0x60000000#32, 0x70000000#32, 0xC0000000#32, 0xF0000000#32, 0x0000000E#32, 0x2C000000#32,
    0x81000000#32, 0x06000000#32] : List Word32).all (fun w => faultOf (step (State.reset.withFetchWord 64 w.toNat))
      == some (.badEvent w)) = true := by decide +kernel

/-- The data formats, each word written out from its pattern string. -/
theorem test_format_names : said (.fmtPn1A0 0b0010_1_1_0000000101#16) State.reset = some (.pn1A0 ⟨2#4, true, true, 5#10⟩)
    ∧ said (.fmtPn1A1 0b1111_101010111100#16) State.reset = some (.pn1A1 ⟨15#4, 0xABC#12⟩)
    ∧ said (.fmtPn2 0b1_0_11_00000_0010010_1_000000100100011#32) State.reset = some (.pn2 ⟨true, false, 3#2, 0x12#7, 0x123#15⟩)
    ∧ said (.fmtSupp 0b10_101_10011#10) State.reset = some (.supp ⟨2#2, 5#3, 0x13#5⟩) := by decide +kernel

theorem test_format_pixels : said (.fmtPixD0 0x0123#16) State.reset = some (.pixD0 ⟨0#4, 1#4, 2#4, 3#4⟩)
    ∧ said (.fmtPixD1 0x00FE#16) State.reset = some (.pixD1 ⟨0#8, 0xFE#8⟩)
    ∧ said (.fmtPixD2 0xF801#16) State.reset = some (.pixD2 ⟨1#11⟩)
    ∧ said (.fmtPixD3 0b1_00001_00010_00011#16) State.reset = some (.pixD3 ⟨true, 1#5, 2#5, 3#5⟩)
    ∧ said (.fmtPixD4 0x80FF8040#32) State.reset = some (.pixD4 ⟨true, 0x80FF#16, 0x8040#16⟩)
    ∧ said (.fmtColor1 0b1_00001_00010_00011#16) State.reset = some (.color1 ⟨1#5, 2#5, 3#5⟩)
    ∧ said (.fmtColofs 0xFEFF#16) State.reset = some (.colofs 255)
    ∧ said (.fmtColofs 0x01F0#16) State.reset = some (.colofs (-16)) := by decide +kernel

/-! ## Vectors of 95_test_vectors.md -/

/-- A1, A3. -/
theorem test_regwr : regGet (after (.regwrPri0F8 0x0503#16) State.reset).reg 0x0F8 = 0x0503#16
    ∧ said (.getPri 1) (after (.regwrPri0F8 0x0503#16) State.reset) = some (.priority 5)
    ∧ regGet (after (.regwr 0x1FE#24 0xFFFF#16) State.reset).reg 0x1FE = 0xFFFF#16
    ∧ said (.getPri 3) (after (.regwrPri0FA 0x0200#16) State.reset) = some (.priority 2)
    ∧ said (.getPri 4) (after (.regwrPri0FC 0x0003#16) State.reset) = some (.priority 3) := by decide +kernel

/-- A4. -/
theorem test_regwr_res : ([(0x0000#16, (320, 224)), (0x0001#16, (352, 224)), (0x0002#16, (640, 224)), (0x0007#16, (704, 224)),
    (0x0010#16, (320, 240)), (0x0030#16, (320, 256)), (0x0040#16, (320, 224)), (0x00C0#16, (320, 448)),
    (0x80D2#16, (640, 480))] : List (Word16 × (Nat × Nat))).all (fun p =>
      let t := after (.regwrRes p.1) State.reset; (t.surface.w, t.surface.h) == p.2) = true := by decide +kernel

/-- A6, F3. -/
theorem test_register_faults : faultOf (exec (.regwr 0x200#24 0#16) State.reset) = some (.badRegOffset 0x200)
    ∧ faultOf (exec (.regwr 0x001#24 0#16) State.reset) = some (.badRegOffset 1)
    ∧ faultOf (exec (.regrd 0x1FF#24) State.reset) = some (.badRegOffset 0x1FF)
    ∧ faultOf (exec (.regrd 0x202#24) State.reset) = some (.badRegOffset 0x202) := by decide +kernel

/-- A8, A10. -/
theorem test_vram : let s := after (.vramwrL 0x100#24 0xAABBCCDD#32) State.reset
    said (.vramrdB 0x100#24) s = some (.byte 0xAA#8) ∧ said (.vramrdB 0x103#24) s = some (.byte 0xDD#8)
      ∧ said (.vramrdW 0x102#24) s = some (.word 0xCCDD#16) ∧ said (.vramrdL 0x100#24) s = some (.long 0xAABBCCDD#32)
      ∧ (after (.vramwrW 0x7FFFE#24 0x1234#16) State.reset).vram = [(0x7FFFE, 0x12#8), (0x7FFFF, 0x34#8)]
      ∧ (after (.vramwrB 0x10#24 0x12#8) State.reset).vram = [(0x10, 0x12#8)] := by decide +kernel

/-- R31, R242: a read before any write answers the launch bytes, whatever they are. -/
theorem test_launch_bytes : said (.vramrdB 0x12345#24) State.reset = some (.byte (Config.launchByte .vram 0x12345))
    ∧ said (.cramrdW 0x010#24) State.reset
      = some (.word (Config.launchByte .cram 0x010 ++ Config.launchByte .cram 0x011)) := ⟨rfl, rfl⟩

/-- A11, F4. -/
theorem test_vram_faults : faultOf (exec (.vramwrL 0x7FFFE#24 0#32) State.reset) = some (.badMemAccess .vram 0x7FFFE 4)
    ∧ faultOf (exec (.vramwrW 0x80000#24 0#16) State.reset) = some (.badMemAccess .vram 0x80000 2)
    ∧ faultOf (exec (.vramwrW 0x00001#24 0#16) State.reset) = some (.badMemAccess .vram 1 2)
    ∧ faultOf (exec (.vramrdL 0x7FFFD#24) State.reset) = some (.badMemAccess .vram 0x7FFFD 4)
    ∧ faultOf (exec (.vramwrL 0x000002#24 0#32) State.reset) = some (.badMemAccess .vram 2 4) := by decide +kernel

/-- A12. -/
theorem test_cram_mode : ([(0x1000#16, .wide), (0x2000#16, .extended), (0x3000#16, .extended), (0x0FFF#16, .legacy)] :
    List (Word16 × CramMode)).all (fun p =>
      said .cramMode (after (.regwrRammode p.1) State.reset) == some (.mode p.2)) = true := by decide +kernel

/-- C1. -/
theorem test_expand1 : said (.expand1 0x1234#16) State.reset = some (.rgb ⟨0xA0#8, 0x88#8, 0x20#8⟩)
    ∧ said (.expand1 0x7C00#16) State.reset = some (.rgb ⟨0#8, 0#8, 0xF8#8⟩) := by decide +kernel

/-- C2, C3, C4, C5. -/
theorem test_cram_writes : (after (.cramwrW 0x002#24 0x7FFF#16) State.reset).cram
      = [(2, 0x7F#8), (3, 0xFF#8), (0x802, 0x7F#8), (0x803, 0xFF#8)]
    ∧ (after (.cramwrB 0x801#24 0xAB#8) State.reset).cram = [(1, 0xAB#8), (0x801, 0xAB#8)]
    ∧ (after (.cramwrL 0x7FC#24 0x11223344#32) State.reset).cram = [(0x7FC, 0x11#8), (0x7FD, 0x22#8), (0x7FE, 0x33#8),
      (0x7FF, 0x44#8), (0xFFC, 0x11#8), (0xFFD, 0x22#8), (0xFFE, 0x33#8), (0xFFF, 0x44#8)]
    ∧ (after (.cramwrW 0x002#24 0x7FFF#16) (regs [(0x00E, 0x1000)])).cram = [(2, 0x7F#8), (3, 0xFF#8)] := by decide +kernel

/-- C11, C12. -/
theorem test_cram_reads : faultOf (exec (.cramwrW 0xFFF#24 0#16) State.reset) = some (.badMemAccess .cram 0xFFF 2)
    ∧ faultOf (exec (.cramwrL 0xFFE#24 0#32) State.reset) = some (.badMemAccess .cram 0xFFE 4)
    ∧ faultOf (exec (.cramrdW 0x1000#24) State.reset) = some (.badMemAccess .cram 0x1000 2)
    ∧ (let s := after (.regwrRammode 0x1000#16) (after (.cramwrL 0x010#24 0x11110000#32) State.reset)
      said (.cramrdW 0x810#24) s = some (.word 0x1111#16)
        ∧ said (.cramrdW 0x810#24) (after (.cramwrW 0x010#24 0x2222#16) s) = some (.word 0x1111#16)
        ∧ said (.cramrdB 0x811#24) s = some (.byte 0x11#8) ∧ said (.cramrdL 0x010#24) s = some (.long 0x11110000#32)) := by
  decide +kernel

/-- C6, C7, C9: one non-zero slot, found through each of its names. -/
theorem test_resolve : let s := withCram (words [(0x5FE, 0x7C00)]) State.reset
    said (.resolveLegacy 0x7FF 0x80#8 7) s = some (.pixel ⟨0#8, 0#8, 0xF8#8, 0x80#8⟩)
      ∧ said (.resolveWide 0x2FF 0x80#8 0) s = some (.pixel ⟨0#8, 0#8, 0xF8#8, 0x80#8⟩)
      ∧ said (.resolveWide 0x7FF 0xFF#8 0) (withCram (words [(0xFFE, 0x7C00)]) State.reset) = some (.pixel ⟨0#8, 0#8, 0xF8#8, 0xFF#8⟩)
      ∧ said (.resolveLegacy 0x11 0x80#8 0) (withCram (words [(0x022, 0x7C00)]) State.reset)
        = some (.pixel ⟨0#8, 0#8, 0xF8#8, 0x80#8⟩) := by decide +kernel

/-- C8: the two words that extended mode reads, whatever P_EXPAND2 makes of them. -/
theorem test_resolve_ext : said (.resolveExt 3 0xFF#8 1) (withCram (words [(0x20C, 0x1200), (0x20E, 0x0034)]) State.reset)
      = some (.pixel (rgba (Config.expand2 0x1200#16 0x0034#16) 0xFF#8))
    ∧ said (.expand2 0x1200#16 0x0034#16) State.reset = some (.rgb (Config.expand2 0x1200#16 0x0034#16)) := by
  constructor <;> rfl

/-- What LAYER.INIT answers. -/
def initOf (l : Bg) (s : State) : Option LayerCfg :=
  match said (.layerInit l) s with
  | some (.layerCfg g) => some g
  | _ => none

/-- L2, L3, L6, L7, L8, L12, L13. -/
theorem test_layer_init_modes :
    (initOf .nbg0 (regs [(0x028, 0x0012)])).map (fun g => (g.bitmap, g.bmW, g.bmH, g.depth, g.patternWH))
      = some (true, 512, 256, .d1, 1)
    ∧ (initOf .nbg1 (regs [(0x028, 0x3100)])).map (fun g => (g.bitmap, g.pageWH, g.depth, g.patternWH))
      = some (false, 32, .d3, 2)
    ∧ (initOf .nbg0 (regs [(0x110, 1), (0x114, 0x01F0)])).map (fun g => g.colorOffset.r) = some (-16)
    ∧ (initOf .nbg0 (regs [(0x110, 1), (0x112, 1), (0x11A, 1), (0x114, 0xFF)])).map (fun g => g.colorOffset.r) = some 1
    ∧ (initOf .nbg0 (regs [(0x0EC, 1), (0x108, 0x0010)])).map (fun g => g.alpha) = some 0x78#8
    ∧ (initOf .nbg0 (regs [(0x028, 0x000E), (0x03C, 3), (0x02C, 5)])).map (fun g => (g.bmW, g.bmH, g.bmBase, g.bmPal))
      = some (1024, 512, 0x60000, 0x50#7)
    ∧ (initOf .nbg0 (regs [(0x028, 2), (0x03C, 5)])).map (fun g => g.bmBase) = some 0x20000 := by decide +kernel

/-- L4, L9, L10, L11, L14, L15. -/
theorem test_layer_init_map : refusalOf (exec (.layerInit .nbg0) (regs [(0x028, 0x0050)])) = some .reservedDepth
    ∧ (initOf .nbg0 (regs [(0x03A, 1)])).map (fun g => (g.planeW, g.planeH)) = some (2, 1)
    ∧ (initOf .nbg0 (regs [(0x03A, 3)])).map (fun g => (g.planeW, g.planeH)) = some (2, 2)
    ∧ (initOf .nbg0 (regs [(0x040, 0x2211), (0x042, 0x4433)])).map (fun g => g.planeSel) = some [0x11, 0x22, 0x33, 0x44]
    ∧ (initOf .rbg0 (regs [(0x054, 0xAB00)])).map (fun g => (g.planeSel[4]?, g.planeSel[5]?)) = some (some 0, some 0xAB)
    ∧ (initOf .nbg0 (regs [(0x020, 0x0101)])).map (fun g => (g.enabled, g.transparencyEnable)) = some (true, false)
    ∧ (initOf .nbg3 (regs [(0x006, 0x8000)])).map (fun g => g.charExt) = some true := by decide +kernel

/-- A layer record with two-word patterns of one cell, or with the given shape. -/
def shaped (words width planeW planeH mapOffset sel : Nat) : LayerCfg :=
  { plain with patternDataSize := words, patternWH := width, pageWH := 64 / width, planeW := planeW, planeH := planeH,
               mapOffset := mapOffset, planeSel := [sel, sel, sel, sel] }

/-- M1.1 to M1.5. -/
theorem test_plane_addr : ([(shaped 1 1 1 1 0 0x01, 0x02000), (shaped 2 2 2 2 1 0x07, 0x44000), (shaped 1 2 1 1 0 0xFF, 0x1F800),
    (shaped 2 1 2 1 0 0x03, 0x08000), (shaped 2 1 1 1 7 0x3F, 0x7C000)] : List (LayerCfg × Nat)).all (fun p =>
      said (.planeAddr p.1 0) State.reset == some (.address p.2)) = true := by decide +kernel

/-- M2.1, M2.2, M2.3. -/
theorem test_pn_addr : said (.pnAddr (shaped 1 1 1 1 0 0) 0x2000 20 9) State.reset = some (.patternName 0x2084 4 1)
    ∧ said (.pnAddr (shaped 2 2 1 1 0 0) 0x2000 20 9) State.reset = some (.patternName 0x2004 4 9)
    ∧ said (.pnAddr (shaped 1 1 1 1 0 0) 0x2000 511 511) State.reset = some (.patternName 0x3FFE 7 7) := by decide +kernel

/-- M2.4, M2.5, M2.6: map, plane and page selection, read off the address of the name. -/
theorem test_locate : locatePattern Config.default { shaped 1 1 1 1 0 0 with planeSel := [0, 1, 2, 3] } (-1) 0 = (0x2000 + 126, 7, 0)
    ∧ locatePattern Config.default { shaped 1 1 1 1 0 0 with planeSel := [0, 1, 2, 3] } 600 700
      = (0x6000 + (188 / 8 * 64 + 88 / 8) * 2, 0, 4)
    ∧ locatePattern Config.default (shaped 1 1 2 2 0 0) 600 700 = (3 * 0x2000 + (188 / 8 * 64 + 88 / 8) * 2, 0, 4) := by
  decide +kernel

/-- R125. -/
theorem test_scroll_coord : said (.scrollCoord { plain with scrollX := 2047, scrollY := 1 } 703 7) State.reset
    = some (.coord 2750 8) := by decide +kernel

/-- M3.1, M3.2, M3.3. -/
theorem test_pn_dec_a0 : said (.pnDec1wA0W1 0x2C05#16 0x003#10 .d0) State.reset = some (.pattern ⟨0x0C05#15, 2#7, true, true, 0#2⟩)
    ∧ said (.pnDec1wA0W1 0xFFFF#16 0x3FF#10 .d1) State.reset = some (.pattern ⟨0x7FFF#15, 0x70#7, true, true, 3#2⟩)
    ∧ said (.pnDec1wA0W2 0x0001#16 0x01F#10 .d0) State.reset = some (.pattern ⟨0x7007#15, 0#7, false, false, 0#2⟩)
    ∧ said (.pnDec1wA0W2 0x03FF#16 0#10 .d0) State.reset = some (.pattern ⟨0x0FFC#15, 0#7, false, false, 0#2⟩) := by
  decide +kernel

/-- M3.4, M3.5, M3.6. -/
theorem test_pn_dec_a1 : said (.pnDec1wA1W1 0xFABC#16 0x005#10 .d0) State.reset = some (.pattern ⟨0x5ABC#15, 0x0F#7, false, false, 0#2⟩)
    ∧ said (.pnDec1wA1W1 0xFABC#16 0x018#10 .d0) State.reset = some (.pattern ⟨0x0ABC#15, 0x0F#7, false, false, 0#2⟩)
    ∧ said (.pnDec1wA1W2 0x0FFF#16 0x013#10 .d0) State.reset = some (.pattern ⟨0x7FFF#15, 0#7, false, false, 0#2⟩)
    ∧ said (.pnDec1wA1W2 0x0001#16 0x00C#10 .d0) State.reset = some (.pattern ⟨4#15, 0#7, false, false, 0#2⟩)
    ∧ said (.pnDec2w 0xC012#16 0x8123#16) State.reset = some (.pattern ⟨0x0123#15, 0x12#7, true, true, 0#2⟩)
    ∧ said (.pnDec2w 0x3000#16 0xFFFF#16) State.reset = some (.pattern ⟨0x7FFF#15, 0#7, false, false, 3#2⟩) := by decide +kernel

/-- M4.1, M4.2, M5. -/
theorem test_char_fin : said (.charFin plain 0x5ABC#15) State.reset = some (.address 0x35780)
    ∧ said (.charFin { plain with charExt := true } 0x5ABC#15) State.reset = some (.address 0xB5780)
    ∧ said (.charFin plain 0x4000#15) State.reset = some (.address 0)
    ∧ flipCoord true plain 0 = 7 ∧ flipCoord true (shaped 1 2 1 1 0 0) 3 = 12 ∧ flipCoord true (shaped 1 2 1 1 0 0) 15 = 0 := by
  decide +kernel

/-- A one-pixel palette whose blue slot is index `i` in legacy mode, with words in video memory. -/
def painted (i : Nat) (m : Memory) : State := withCram (words [(2 * i, 0x7C00)]) (withVram m State.reset)

/-- The blue pixel of that palette. -/
def blue : Pixel := { r := 0#8, g := 0#8, b := 0xF8#8, a := 0xFF#8 }

/-- P2's worked pixel, screen (15, 0): the name (1, 0) flipped, dot 1 of palette 2. -/
theorem test_tile_pixel : said (.tilePixel (shaped 1 1 1 1 0 1) 15 0)
      (painted 0x21 (words [(0x200, 0x1200), (0x202, 0x0001), (0x2002, 0x2410)])) = some (.fetched (some blue))
    ∧ said (.layerPixel { shaped 1 1 1 1 0 1 with scrollX := 8 } 7 0)
      (painted 0x21 (words [(0x200, 0x1200), (0x202, 0x0001), (0x2002, 0x2410)])) = some (.fetched (some blue))
    ∧ refusalOf (exec (.tilePixel { shaped 1 1 1 1 0 1 with auxMode := 2 } 0 0) State.reset) = some .reservedAuxMode := by decide +kernel

/-- X1, X2: the dot 0 of a layer with and without transparency. -/
theorem test_pix_fetch_d0 : said (.pixFetchD0 plain 0 2#7 0 0) (painted 0x20 (words [(0, 0x0123)])) = some (.fetched none)
    ∧ said (.pixFetchD0 { plain with transparencyEnable := false } 0 2#7 0 0) (painted 0x20 (words [(0, 0x0123)]))
      = some (.fetched (some blue))
    ∧ said (.pixFetchD0 plain 0 2#7 3 0) (painted 0x23 (words [(0, 0x0123)])) = some (.fetched (some blue))
    ∧ said (.pixFetchD0 plain 0x35780 2#7 5 2) (painted 0x24 (words [(0x3578A, 0x0400)])) = some (.fetched (some blue)) := by decide +kernel

/-- X3, X11. -/
theorem test_pix_fetch_d1 : said (.pixFetchD1 { plain with depth := .d1 } 0 0x30#7 1 0) (painted 0x3FE (words [(0, 0x00FE)]))
      = some (.fetched (some blue))
    ∧ said (.pixFetchD1 { shaped 1 2 1 1 0 0 with depth := .d1 } 0x100 0x3F#7 9 10) (painted 0x301 (words [(0x100 + 208, 0x0001)]))
      = some (.fetched (some blue)) := by decide +kernel

/-- X5. -/
theorem test_pix_fetch_d2 : said (.pixFetchD2 { plain with depth := .d2 } 0 0#7 0 0) (painted 0x3FF (words [(0, 0xF800)]))
      = some (.fetched none)
    ∧ said (.pixFetchD2 { plain with depth := .d2 } 0 0#7 0 0) (painted 0x3FF (words [(0, 0x07FF)]))
      = some (.fetched (some blue)) := by decide +kernel

/-- X6, X7. -/
theorem test_pix_fetch_d3 : said (.pixFetchD3 { plain with depth := .d3 } 0 0#7 0 0) (withVram (words [(0, 0x801F)]) State.reset)
      = some (.fetched (some ⟨0xF8#8, 0#8, 0#8, 0xFF#8⟩))
    ∧ said (.pixFetchD3 { plain with depth := .d3 } 0 0#7 0 0) (withVram (words [(0, 0x7FFF)]) State.reset)
      = some (.fetched none)
    ∧ said (.pixFetchD3 { plain with depth := .d3, transparencyEnable := false } 0 0#7 0 0)
      (withVram (words [(0, 0x7FFF)]) State.reset) = some (.fetched (some ⟨0xF8#8, 0xF8#8, 0xF8#8, 0xFF#8⟩)) := by
  decide +kernel

/-- X8, X12: which two words reach P_EXPAND2, and the flag of the first. -/
theorem test_pix_fetch_d4 : said (.pixFetchD4 { plain with depth := .d4 } 0x100 0#7 7 7)
      (withVram (words [(0x1FC, 0x8000), (0x1FE, 0x0040)]) State.reset)
      = some (.fetched (some (rgba (Config.expand2 0x8000#16 0x0040#16) 0xFF#8)))
    ∧ said (.pixFetchD4 { plain with depth := .d4 } 0 0#7 0 0) (withVram (words [(0, 0), (2, 0xFFFF)]) State.reset)
      = some (.fetched none) := by constructor <;> rfl

/-- X13, X14. -/
theorem test_bitmap_pixel : said (.bitmapPixel { plain with depth := .d1, bitmap := true, bmBase := 0x20000, bmW := 512 } 3 1)
      (painted 0x044 (words [(0x20202, 0x0044)])) = some (.fetched (some blue))
    ∧ said (.bitmapPixel { plain with bitmap := true, bmBase := 0, bmW := 1024, bmH := 256 } 1025 (-1))
      (painted 0x3 (words [(0x1FE00, 0x0300)])) = some (.fetched (some blue)) := by decide +kernel

/-- RO1. -/
theorem test_rot_addr : said .rotAddr (regs [(0x0BC, 0x0001), (0x0BE, 0x2040)]) = some (.address 0x24000)
    ∧ said .rotAddr (regs [(0x0BC, 0xFFFF), (0x0BE, 0xFFFF)]) = some (.address 0x7FF7C) := by decide +kernel

/-- RO2. -/
theorem test_rot_entries : fixPoint 0x00010000 defaultRotLayout.matA = 1 ∧ fixPoint 0x000F0000 defaultRotLayout.matA = -1
    ∧ fixPoint 0x0000FFFF defaultRotLayout.xst = 0xFFC0 / 65536 ∧ fixPoint 0xE0010000 defaultRotLayout.xst = 1
    ∧ fixPoint 0x00008000 defaultRotLayout.kx = 1 / 2 ∧ fixPoint 0x3FFF defaultRotLayout.px = -1
    ∧ fixPoint 0xC001 defaultRotLayout.px = 1 := by decide +kernel

/-- P4's table at 0x10000: A = 1/2, E = 1, ky = 1. -/
theorem test_rot_load : (match said .rotLoad (withVram (words [(0x1001C, 0), (0x1001E, 0x8000), (0x1002C, 1),
      (0x1002E, 0), (0x1004C, 0), (0x1004E, 0), (0x10050, 1), (0x10052, 0)])
      (regs [(0x0BE, 0x8000)])) with
    | some (.rotParams r) => some (r.matA, r.matE, r.ky, r.kx)
    | _ => none) = some (1 / 2, 1, 1, 0) := by decide +kernel

/-- RO3, RO4, RO5, RO7, and T4 as printed. -/
theorem test_rot_coord : said (.rotCoord { identityRot with matA := 1 / 2 } 319 223) State.reset = some (.coord 159 223)
    ∧ said (.rotCoord { identityRot with xst := -1 / 2 } 0 0) State.reset = some (.coord 0 0)
    ∧ said (.rotCoord { identityRot with px := 10, cx := 4 } 0 0) State.reset = some (.coord (-4) 0)
    ∧ said (.rotCoord { identityRot with matB := 1 } 3 4) State.reset = some (.coord 7 4)
    ∧ said (.rotCoord { identityRot with matD := 1, matE := 0 } 10 7) State.reset = some (.coord 10 10) := by decide +kernel

/-- A rotation layer whose screen origin falls on the source coordinate (−4, 0). -/
def movedRot : LayerCfg :=
  { plainRot with
    rot := some { identityRot with px := 10, cx := 4 }
    patternDataSize := 1
    planeSel := [0, 0, 0, 1, 0, 0, 0, 0, 0, 0, 0, 0, 0, 0, 0, 0] }

/-- RO8: the wrap of the rotation layer's map, 2048 pixels wide. -/
theorem test_rot_pixel : said (.rotPixel movedRot 0 0)
    (painted 0x25 (words [(0x202, 0x5000), (0x2000 + 126, 0x2010)])) = some (.fetched (some blue)) := by
  decide +kernel

/-- T2 (R193), K2, K4. -/
theorem test_sort : let s := regs [(0x0F8, 0x0505), (0x0FA, 0x0200), (0x0FC, 0x0003), (0x020, 0x001F)]
    said .sort s = some (.order [.bg .nbg3, .bg .rbg0, .bg .nbg0, .bg .nbg1])
      ∧ said .sort { s with sprite := oneSprite } = some (.order [.bg .nbg3, .bg .rbg0, .bg .nbg0, .bg .nbg1, .sprite])
      ∧ said .sort { regs [(0x0F8, 7), (0x020, 0x1F)] with sprite := { oneSprite with priority := 1 } }
        = some (.order [.sprite, .bg .nbg0]) := by decide +kernel

/-- R185, R187, R189. -/
theorem test_priorities : said (.getPri 5) { State.reset with sprite := oneSprite } = some (.priority 5)
    ∧ said (.innerPri 5) State.reset = some (.rank 5) ∧ said (.innerPri 4) State.reset = some (.rank 4)
    ∧ faultOf (exec (.getPri 6) State.reset) = some (.badLayerIndex 6) ∧ faultOf (exec (.layerDraw 6) State.reset) = some (.badLayerIndex 6) := by
  decide +kernel

/-- K5. -/
theorem test_colofs : said (.colofs ⟨0xF8#8, 0x10#8, 0x80#8, 0xFF#8⟩ 16 (-32) 0) State.reset
      = some (.pixel ⟨0xFF#8, 0#8, 0x80#8, 0xFF#8⟩)
    ∧ said (.colofs ⟨0#8, 0#8, 0#8, 0x40#8⟩ (-256) (-256) (-256)) State.reset = some (.pixel ⟨0#8, 0#8, 0#8, 0x40#8⟩) := by
  decide +kernel

/-- K6. -/
theorem test_blend (d : Pixel) : said (.blend d ⟨1#8, 2#8, 3#8, 0xFF#8⟩) State.reset = some (.pixel ⟨1#8, 2#8, 3#8, 0xFF#8⟩) := rfl

/-- A configuration whose frames are 2 by 1 pixels, for the tests that draw. -/
def tiny : Config := { Config.default with hres := [2, 2, 2, 2], vres := [1, 1, 1, 1] }

/-- The rows of a drawn surface. -/
def rowsOf (s : State) : List (List Pixel) :=
  match s.surface.px with
  | .drawn rows => rows
  | .unspecified _ => []

/-- A transparent black pixel, P_CLEAR. -/
def black : Pixel := { r := 0#8, g := 0#8, b := 0#8, a := 0#8 }

/-- Registers and memories of one layer of blue characters. -/
def blueLayer (pri : Nat) : State :=
  withVram (words [(0x20, 0x1111), (0x2000, 0x2001)])
    (withCram (words [(0x42, 0x7C00)]) (regs [(0x000, 0x8000), (0x020, 1), (0x030, 0x8000), (0x040, 0x0101), (0x0F8, pri)]))

/-- One layer of blue characters, and a sprite at the origin over or under it. -/
def scene (pri : Nat) : State := { blueLayer pri with config := tiny, sprite := oneSprite }

/-- K8, K9, K3, K10: the later opaque layer covers, a transparent position shows what is under it, a layer of priority 0 is not
drawn, and a disabled display clears. -/
theorem test_drawframe : rowsOf (after .drawframe (scene 3)) = [[⟨1#8, 2#8, 3#8, 0xFF#8⟩, blue]]
    ∧ rowsOf (after .drawframe (scene 6)) = [[blue, blue]]
    ∧ rowsOf (after .drawframe (scene 0)) = [[⟨1#8, 2#8, 3#8, 0xFF#8⟩, black]]
    ∧ rowsOf (after .drawframe (after (.regwrRes 0#16) (scene 3))) = [[black, black]] := by decide +kernel

/-- R197: LAYER.DRAW of the sprite layer over a cleared surface. -/
theorem test_layer_draw : rowsOf (after (.layerDraw 5) { scene 3 with surface := buildSurface 2 1 (fun _ _ => blue) })
    = [[⟨1#8, 2#8, 3#8, 0xFF#8⟩, blue]] := by decide +kernel

/-- R199. -/
theorem test_present : (after .present { scene 3 with surface := buildSurface 2 1 (fun _ _ => blue) }).outputs
    = [.present 2 1 (.drawn [[blue, blue]])] := by decide +kernel

/-- E1, E3, E5, A7. -/
theorem test_edges : statusAfter .hbin State.reset = 0x0004#16 ∧ statusAfter .hbin (regs [(4, 0xFFF0)]) = 0xFFF4#16
    ∧ statusAfter .hbout (regs [(4, 0xFFFF)]) = 0xFFFB#16 ∧ (after .hbout State.reset).outputs = [.notify .hbout]
    ∧ statusAfter (.vbin true) (regs [(4, 0x0004)]) = 0x000C#16
    ∧ (after (.vbin true) State.reset).outputs = [.notify .vbin, .notifySlave .slaveVbin]
    ∧ (after (.vbin false) State.reset).outputs = [.notify .vbin] := by decide +kernel

/-- T6, A7: the flags and the outputs of VBOUT, in order. -/
theorem test_vbout : statusAfter .vbout { regs [(4, 0xFFFB)] with config := tiny } = 0xFFF3#16
    ∧ statusAfter .vbout { regs [(4, 0x0008)] with config := tiny } = 0x0002#16
    ∧ (after .vbout { regs [(4, 0x0008)] with config := tiny }).outputs
      = [.present 2 1 (.drawn [[black, black]]), .notify .vbout]
    ∧ refusalOf (exec .vbout (regs [(0, 0x8000), (0x020, 1), (0x0F8, 1), (0x028, 0x0050)])) = some .reservedDepth := by decide +kernel

/-! ## Witnesses: for each obligation with hypotheses, a state and operands that meet them

A statement with several clauses gets a witness for each, at the ends of its ranges. -/

/-- The launch state meets the invariant. -/
theorem reset_inv : Inv State.reset :=
  ⟨by decide +kernel, by decide, by decide, by decide, by decide, trivial, by decide +kernel⟩

theorem reset_default : State.reset.config = Config.default := rfl

theorem default_wf : State.reset.config.wf = true := reset_inv.configWf

/-- A display that is on, with the sprite layer alone, at the default resolution. -/
def spriteOnly : State := { regs [(0x000, 0x8000)] with sprite := oneSprite }

/-- A display that is on, with NBG0 enabled at priority 1 and a reserved depth. -/
def reservedNbg0 : State := regs [(0x000, 0x8000), (0x020, 1), (0x0F8, 1), (0x028, 0x0050)]

/-- A frame with the display off. -/
theorem drawframe_off {s : State} (h : displayOn s.snap = false) : ∃ t, exec .drawframe s = .next t := by
  simp [exec, execDrawframe, drawFrameOn, drawFrame, h]

/-- The end of a frame with the display off. -/
theorem vbout_off {s : State} (h : displayOn (vboutFlags s).snap = false) : ∃ t, exec .vbout s = .next t := by
  simp [exec, execVbout, drawFrameOn, drawFrame, h]

theorem reset_vbout : ∃ t, exec .vbout State.reset = .next t := vbout_off (by decide +kernel)

theorem witness_InvariantHoldsAtLaunch : let v : Memory := [(0, 1#8), (0x7FFFF, 2#8)]; let c : Memory := [(0xFFF, 3#8)]
    v.wf ∧ v.within 0x80000 ∧ c.wf ∧ c.within 0x1000 ∧ Surface.wf { w := 320, h := 224, px := .unspecified 7 } := by decide

theorem witness_EveryStepKeepsTheInvariant : Inv State.reset ∧ (∃ t, exec (.vbin true) State.reset = .next t)
    ∧ Inv (State.reset.withFetchWord 64 0xA1000000) ∧ ∃ t, step (State.reset.withFetchWord 64 0xA1000000) = .next t :=
  ⟨reset_inv, ⟨_, rfl⟩, ⟨reset_inv.1, reset_inv.2, reset_inv.3, reset_inv.4, reset_inv.5, reset_inv.6, reset_inv.7⟩, ⟨_, rfl⟩⟩

theorem witness_StepRunsTheDecodedEvent :
    (State.reset.withFetchWord 64 0xA1000000).inbox = [⟨0xA1000000#32, 0#32, SpritePort.off⟩]
      ∧ decode 0xA1000000#32 0#32 = .ok (.vbin true)
      ∧ (State.reset.withFetchWord 64 0x60000000).inbox = [⟨0x60000000#32, 0#32, SpritePort.off⟩]
      ∧ decode 0x60000000#32 0#32 = .error .undefinedClass ∧ State.reset.inbox = []
      ∧ decodeTableWord 64 0x123404000030 = some (.regwr 0x030#24 0x1234#16)
      ∧ decodeTableWord 32 0xA1000000 = some (.vbin true) := by decide +kernel

theorem witness_DecodeOfEncodeIsTheEvent : Instr.wf (.regwr 0xFFFFFF#24 0xFFFF#16) = true
    ∧ encode (.regwr 0xFFFFFF#24 0xFFFF#16) = some (0x04FFFFFF#32, 0xFFFF#32)
    ∧ encode (.vramwrL 0x7FFFC#24 0xFFFFFFFF#32) = some (0x2807FFFC#32, 0xFFFFFFFF#32) := by decide

theorem witness_EncodeOfDecodeIsTheHeader : decode 0x20000001#32 0xFFFFFF34#32 = .ok (.vramwrB 1#24 0x34#8)
    ∧ dataBits (.vramwrB 1#24 0x34#8) = 8 := by decide

theorem witness_FormatsSplitAndPackAgree : let f : FmtPixD4 := { o := true, w1 := 0x80FF#16, w2 := 0x8040#16 }
    f.o = f.w1.getLsbD 15 := by decide

theorem witness_RegisterWriteStoresOneRegister : regwrForm 0x1FE#24 0#16 = .regwr 0x1FE#24 0#16
    ∧ regwrForm 0x0F8#24 0#16 = .regwrPri0F8 0#16 ∧ (0x1FE#24).toNat % 2 = 0 ∧ (0x1FE#24).toNat ≤ 0x1FE
    ∧ ¬((0x1FF#24).toNat % 2 = 0 ∧ (0x1FF#24).toNat ≤ 0x1FE) ∧ ¬((0x200#24).toNat % 2 = 0 ∧ (0x200#24).toNat ≤ 0x1FE)
    ∧ (0x1FE#24 : BitVec 24) ≠ 0x000#24 := by decide

theorem witness_RegisterReadAnswersTheLatestWrite : (0x000#24).toNat % 2 = 0 ∧ (0x1FE#24).toNat % 2 = 0
    ∧ (0x1FE#24).toNat ≤ 0x1FE ∧ ¬((0x001#24).toNat % 2 = 0 ∧ (0x001#24).toNat ≤ 0x1FE) := by decide

theorem witness_RegisterWritesAreIdempotentAndCommute : State.reset.config.wf = true ∧ (0x000#24 : BitVec 24) ≠ 0x1FE#24
    ∧ (0x000#24).toNat % 2 = 0 ∧ (0x000#24).toNat ≤ 0x1FE ∧ (0x1FE#24).toNat % 2 = 0 ∧ (0x1FE#24).toNat ≤ 0x1FE :=
  ⟨default_wf, by decide⟩

theorem witness_ResolutionWriteResizesTheSurface : State.reset.config = Config.default
    ∧ ([320, 352, 640, 704].getD ((0x0000#16).toNat % 4) 0, [224, 240, 256, 256].getD ((0x0000#16).toNat / 16 % 4) 0)
      = (State.reset.surface.w, State.reset.surface.h)
    ∧ ([320, 352, 640, 704].getD ((0x0001#16).toNat % 4) 0, [224, 240, 256, 256].getD ((0x0001#16).toNat / 16 % 4) 0)
      ≠ (State.reset.surface.w, State.reset.surface.h) := ⟨rfl, by decide⟩

theorem witness_RamModeWriteSelectsTheMode : State.reset.config = Config.default := rfl

theorem witness_PriorityWritesAreReadByGetPri : State.reset.config = Config.default := rfl

theorem witness_VideoMemoryWriteStoresBigEndian : Inv State.reset
    ∧ ((0x7FFFC#24).toNat % 4 = 0 ∧ (0x7FFFC#24).toNat + 4 ≤ State.reset.config.vramBytes)
    ∧ ¬((0x7FFFE#24).toNat % 4 = 0 ∧ (0x7FFFE#24).toNat + 4 ≤ State.reset.config.vramBytes)
    ∧ ¬((0x80000#24).toNat % 1 = 0 ∧ (0x80000#24).toNat + 1 ≤ State.reset.config.vramBytes) := ⟨reset_inv, by decide⟩

theorem witness_VideoMemoryReadAnswersBigEndian : (0x7FFFF#24).toNat + 1 ≤ State.reset.config.vramBytes
    ∧ (0x7FFFE#24).toNat % 2 = 0 ∧ (0x7FFFE#24).toNat + 2 ≤ State.reset.config.vramBytes
    ∧ (0x7FFFC#24).toNat % 4 = 0 ∧ (0x7FFFC#24).toNat + 4 ≤ State.reset.config.vramBytes
    ∧ State.reset.config.vramBytes < (0x80000#24).toNat + 1
    ∧ ¬((0x7FFFF#24).toNat % 2 = 0 ∧ (0x7FFFF#24).toNat + 2 ≤ State.reset.config.vramBytes)
    ∧ ¬((0x7FFFE#24).toNat % 4 = 0 ∧ (0x7FFFE#24).toNat + 4 ≤ State.reset.config.vramBytes) := by decide

theorem witness_ViewsAndMixedWidthsAreBigEndian : Inv State.reset ∧ (0x7FFFE#24).toNat % 2 = 0
    ∧ (0x7FFFE#24).toNat + 2 ≤ State.reset.config.vramBytes ∧ (0x7FFFC#24).toNat % 4 = 0
    ∧ (0x7FFFC#24).toNat + 4 ≤ State.reset.config.vramBytes ∧ 0x1FE % 2 = 0 ∧ 0x1FC % 2 = 0 := ⟨reset_inv, by decide⟩

theorem witness_ColourMemoryWriteMirrorsInLegacyMode : Inv State.reset
    ∧ cramModeOf State.reset.config State.reset.reg = .legacy
    ∧ ((0xFFC#24).toNat % 4 = 0 ∧ (0xFFC#24).toNat + 4 ≤ 0x1000) ∧ ¬((0xFFE#24).toNat % 4 = 0 ∧ (0xFFE#24).toNat + 4 ≤ 0x1000)
    ∧ cramModeOf Config.default (regs [(0x00E, 0x1000)]).reg = .wide := ⟨reset_inv, by decide +kernel⟩

theorem witness_ColourMemoryReadAnswersBigEndian : (0xFFF#24).toNat + 1 ≤ 0x1000
    ∧ (0xFFE#24).toNat % 2 = 0 ∧ (0xFFE#24).toNat + 2 ≤ 0x1000 ∧ (0xFFC#24).toNat % 4 = 0 ∧ (0xFFC#24).toNat + 4 ≤ 0x1000
    ∧ 0x1000 < (0x1000#24).toNat + 1 ∧ ¬((0xFFF#24).toNat % 2 = 0 ∧ (0xFFF#24).toNat + 2 ≤ 0x1000)
    ∧ ¬((0xFFE#24).toNat % 4 = 0 ∧ (0xFFE#24).toNat + 4 ≤ 0x1000) := by decide

/-- A memory that holds 0 at each of its first `n` addresses. -/
@[irreducible] def zeros (n : Nat) : Memory := (List.range n).map (fun a => (a, 0#8))

theorem zeros_wf (n : Nat) : (zeros n).wf := by
  unfold zeros
  exact List.pairwise_map.mpr List.pairwise_lt_range

theorem zeros_within (n : Nat) : (zeros n).within n := fun c hc => by
  unfold zeros at hc
  obtain ⟨a, ha, rfl⟩ := List.mem_map.mp hc
  exact List.mem_range.mp ha

theorem readByte_zeros (sp : Space) (n a : Nat) (h : a < n) : readByte sp (zeros n) n a = 0#8 := by
  rw [readByte_of_lt _ _ h]
  refine memGet_listed (memFind_of_mem (zeros_wf n) ?_)
  unfold zeros
  exact List.mem_map.mpr ⟨a, List.mem_range.mpr h, rfl⟩

/-- A state whose colour memory holds 0 at every address. -/
def clearedCram : State := State.reset.setCram (zeros 0x1000)

theorem clearedCram_inv : Inv clearedCram :=
  ⟨reset_inv.1, reset_inv.2, reset_inv.3, zeros_wf 0x1000, zeros_within 0x1000, reset_inv.6, reset_inv.7⟩

theorem witness_LegacyHalvesStayEqual : Inv clearedCram ∧ cramModeOf clearedCram.config clearedCram.reg = .legacy
    ∧ HalvesEqual clearedCram ∧ ∃ t, exec (.cramwrW 0x802#24 0x7FFF#16) clearedCram = .next t := by
  refine ⟨clearedCram_inv, by decide +kernel, fun a ha => ?_, ⟨_, rfl⟩⟩
  exact (readByte_zeros .cram 0x1000 (a + 0x800) (by omega)).trans (readByte_zeros .cram 0x1000 a (by omega)).symm

theorem witness_ResolveReadsItsSlot : State.reset.config = Config.default ∧ 7 ≤ 7 := ⟨rfl, by decide⟩

theorem witness_LayerInitDecodesTheRegisters : State.reset.config = Config.default
    ∧ regBits (regs [(0x028, 0x0040)]).reg 0x028 4 3 ≤ 4 ∧ 5 ≤ regBits (regs [(0x028, 0x0050)]).reg 0x028 4 3
    ∧ regBits (regs [(0x02A, 0x4000)]).reg 0x02A 12 3 ≤ 4 ∧ 5 ≤ regBits (regs [(0x02A, 0x7000)]).reg 0x02A 12 3 :=
  ⟨rfl, by decide +kernel⟩

theorem witness_LayerRecordsAreInRange : State.reset.config.wf = true
    ∧ fld (regs [(0x028, 0x0040)]).reg (layerFields Config.default .nbg0).chcn ≤ 4
    ∧ 5 ≤ fld (regs [(0x028, 0x0050)]).reg (layerFields Config.default .nbg0).chcn := ⟨default_wf, by decide +kernel⟩

theorem witness_ScrollCoordAddsTheOrigin : LayerCfg.wf { plain with scrollX := 2047, scrollY := 2047 } = true
    ∧ 703 < 704 ∧ 511 < 512 := by decide +kernel

theorem witness_PlaneAddrFollowsTheFormula : plain.wf = true ∧ 3 < plain.mapWH * plain.mapWH
    ∧ plainRot.wf = true ∧ 15 < plainRot.mapWH * plainRot.mapWH := by decide +kernel

theorem witness_PatternNameAddressIsRowMajor : plain.wf = true ∧ 511 < 512 ∧ 0x2000 % 2 = 0
    ∧ State.reset.config.vramBytes % 2 = 0 := by decide +kernel

theorem witness_TilePixelIsTheWalk : plain.wf = true ∧ plain.bitmap = false
    ∧ (nameOp State.reset plain 0).isSome = true
    ∧ LayerCfg.wf { plain with patternDataSize := 1, auxMode := 2 } = true
    ∧ nameOp State.reset { plain with patternDataSize := 1, auxMode := 2 } 0 = none := by decide +kernel

theorem witness_MapsAndBitmapsRepeat : plain.wf = true ∧ plainRot.wf = true := by decide +kernel

theorem witness_PalettePixelsAreFetched : plain.wf = true ∧ 7 < 8 * plain.patternWH
    ∧ (plain.transparencyEnable = true ∧ bigEndian .vram (words [(0, 0)]) 0x80000 0 2 % 16 = 0)
    ∧ ¬(plain.transparencyEnable = true ∧ bigEndian .vram (words [(0, 5)]) 0x80000 0 2 % 16 = 0) := by decide +kernel

theorem witness_DirectPixelsAreFetched : plain.wf = true ∧ 7 < 8 * plain.patternWH
    ∧ (plain.transparencyEnable = true ∧ bigEndian .vram (words [(0, 0)]) 0x80000 0 2 / 2 ^ 15 = 0)
    ∧ ¬(plain.transparencyEnable = true ∧ bigEndian .vram (words [(0, 0x8000)]) 0x80000 0 2 / 2 ^ 15 = 0) := by decide +kernel

theorem witness_BitmapPixelIsRowMajor : LayerCfg.wf { plain with bitmap := true } = true := by decide +kernel

theorem witness_LayerPixelDispatches : plain.wf = true ∧ plain.layer ≠ .rbg0 ∧ plainRot.wf = true ∧ plainRot.layer = .rbg0 := by
  decide +kernel

theorem witness_ReservedAuxModeIsRefused : plain.wf = true ∧ plain.patternDataSize = 2
    ∧ (let g := { plain with patternDataSize := 1, auxMode := 2 }
      g.wf = true ∧ g.patternDataSize = 1 ∧ 2 ≤ g.auxMode ∧ g.bitmap = false)
    ∧ (let g := { plain with patternDataSize := 1, auxMode := 1 }; g.wf = true ∧ g.auxMode ≤ 1)
    ∧ (let g := { plain with patternDataSize := 1, auxMode := 2, bitmap := true }; g.wf = true ∧ g.bitmap = true) := by
  decide +kernel

theorem witness_RotAddrClearsTheTableBits : State.reset.config = Config.default := rfl

theorem witness_RotLoadReadsTheTable : State.reset.config = Config.default := rfl

theorem witness_RotIdentityIsTheScreenPosition : let r := identityRot
    r.matA = 1 ∧ r.matE = 1 ∧ r.matB = 0 ∧ r.matC = 0 ∧ r.matD = 0 ∧ r.matF = 0 ∧ r.kx = 1 ∧ r.ky = 1 ∧ r.deltaX = 1
      ∧ r.deltaY = 0 ∧ r.deltaXst = 0 ∧ r.deltaYst = 1 ∧ r.xst = 0 ∧ r.yst = 0 ∧ r.zst = 0 ∧ r.px = 0 ∧ r.py = 0 ∧ r.pz = 0
      ∧ r.cx = 0 ∧ r.cy = 0 ∧ r.cz = 0 := by decide +kernel

theorem witness_PrioritiesAndRanksByIndex : State.reset.config = Config.default ∧ 5 < 6 := ⟨rfl, by decide⟩

theorem witness_SortAnswersTheDrawOrder : State.reset.config.wf = true := default_wf

theorem witness_BlendCoversWhenOpaque : blue.a = 0xFF#8 := rfl

theorem witness_LayerDrawBlendsEachPixel : layerDrawable Config.default State.reset.reg (.bg .nbg0) = true
    ∧ layerDrawable Config.default reservedNbg0.reg (.bg .nbg0) = false ∧ 319 < State.reset.surface.w
    ∧ 223 < State.reset.surface.h ∧ Shows spriteOnly .sprite 0 0 (some { r := 1, g := 2, b := 3, a := 0xFF })
    ∧ Shows spriteOnly .sprite 1 0 none := ⟨by decide +kernel, by decide +kernel, by decide, by decide, rfl, rfl⟩

theorem witness_DrawframeClearsThenDrawsInOrder : fld spriteOnly.reg spriteOnly.config.regmap.disp = 1
    ∧ fld State.reset.reg State.reset.config.regmap.disp ≠ 1 := by decide +kernel

theorem spriteOnly_order : drawOrder spriteOnly.config spriteOnly.reg spriteOnly.sprite = [.sprite] := by decide +kernel

theorem spriteOnly_frame : exec .drawframe spriteOnly
    = .next (spriteOnly.setSurface (paintSurface (clearedSurface spriteOnly.snap) (spritePixelAt oneSprite))) := by
  have hd : displayOn spriteOnly.snap = true := by decide +kernel
  have ho : drawOrder spriteOnly.snap.config spriteOnly.snap.reg spriteOnly.sprite = [.sprite] := spriteOnly_order
  simp only [exec, execDrawframe, drawFrameOn, drawFrame, hd, ho, if_true, drawLayers, drawLayer, layerSource]
  rfl

theorem witness_TopmostOpaquePixelWins : fld spriteOnly.reg spriteOnly.config.regmap.disp = 1
    ∧ Answers spriteOnly .sort (.order [.sprite]) ∧ (∃ t, exec .drawframe spriteOnly = .next t
      ∧ 1 < t.surface.w ∧ 0 < t.surface.h)
    ∧ [Layer.sprite] = [] ++ .sprite :: [] ∧ Shows spriteOnly .sprite 0 0 (some { r := 1, g := 2, b := 3, a := 0xFF })
    ∧ (∀ m ∈ ([] : List Layer), Shows spriteOnly m 0 0 none) ∧ ∀ l ∈ [Layer.sprite], Shows spriteOnly l 1 0 none := by
  refine ⟨by decide +kernel, ?_, ⟨_, spriteOnly_frame, by decide +kernel, by decide +kernel⟩, rfl, rfl, by simp, ?_⟩
  · rw [Answers, ← spriteOnly_order]
    rfl
  · intro l hl
    cases List.mem_singleton.1 hl
    rfl

theorem witness_FrameDependsOnTheSnapshotOnly : let s := State.reset; let s' := (regs [(0x004, 0x000E)]).resize 1 1
    s.config = Config.default ∧ s'.config = Config.default ∧ s.vram = s'.vram ∧ s.cram = s'.cram ∧ s.sprite = s'.sprite
      ∧ (∀ off, off % 2 = 0 → off ≤ 0x1FE → off ≠ 0x004 → regGet s.reg off = regGet s'.reg off) ∧ s.reg ≠ s'.reg := by
  refine ⟨rfl, rfl, rfl, rfl, rfl, ?_, by decide +kernel⟩
  intro off h1 h2 h3
  exact (regGet_regPut_other _ _ (by omega)).symm

theorem witness_BlankingEdgesWriteOneFlag : State.reset.config.wf = true := default_wf

theorem witness_VboutDrawsPresentsNotifies : State.reset.config.wf = true ∧ (∃ t, exec .drawframe State.reset = .next t)
    ∧ reservedNbg0.config.wf = true ∧ refusalOf (exec .drawframe reservedNbg0) = some .reservedDepth :=
  ⟨default_wf, drawframe_off (by decide +kernel), default_wf, by decide +kernel⟩

theorem witness_FrameIsRefusedExactlyOnReservedModes : State.reset.config = Config.default
    ∧ frameDrawable State.reset.config State.reset.reg State.reset.sprite
    ∧ ¬frameDrawable reservedNbg0.config reservedNbg0.reg reservedNbg0.sprite := by
  refine ⟨rfl, fun h => absurd h (by decide +kernel), fun h => ?_⟩
  exact absurd (h (by decide +kernel) (.bg .nbg0) (by decide) (by decide +kernel)) (by decide +kernel)

theorem witness_BlankingPhaseTable : State.reset.config.wf = true ∧ (∃ t, exec .hbin State.reset = .next t)
    ∧ (∃ t, exec .hbout State.reset = .next t) ∧ (∃ t, exec (.vbin true) State.reset = .next t)
    ∧ (∃ t, exec .vbout State.reset = .next t) ∧ notStatusWrite (.regwr 0x006#24 0#16)
    ∧ ∃ t, exec (.regwr 0x006#24 0#16) State.reset = .next t :=
  ⟨default_wf, ⟨_, rfl⟩, ⟨_, rfl⟩, ⟨_, rfl⟩, reset_vbout, (by decide : (0x006#24 : BitVec 24) ≠ 0x004#24), ⟨_, rfl⟩⟩

theorem witness_DisabledDisplayPresentsClear : State.reset.config = Config.default
    ∧ fld State.reset.reg State.reset.config.regmap.disp = 0 := ⟨rfl, by decide +kernel⟩

theorem witness_VbinThenVboutPresentsOneFrame : State.reset.config.wf = true
    ∧ ∃ t u, exec (.vbin true) State.reset = .next t ∧ exec .vbout t = .next u := by
  refine ⟨default_wf, after (.vbin true) State.reset, ?_⟩
  obtain ⟨u, hu⟩ := vbout_off (s := after (.vbin true) State.reset) (by decide +kernel)
  exact ⟨u, rfl, hu⟩

theorem witness_AnsweringOperationsChangeNothing : onlyAnswers (.regrd 0x004#24) = true ∧ onlyAnswers .sort = true
    ∧ (∃ t, exec (.regrd 0x004#24) State.reset = .next t) ∧ ∃ t, exec .sort State.reset = .next t :=
  ⟨rfl, rfl, ⟨_, rfl⟩, ⟨_, rfl⟩⟩

theorem witness_WhoWritesWhat : State.reset.config.wf = true ∧ (∃ t, exec (.regwr 0x1FE#24 1#16) State.reset = .next t)
    ∧ registerWritten (.regwr 0x1FE#24 1#16) = some 0x1FE ∧ isVramWrite .hbin = false ∧ isCramWrite .hbin = false
    ∧ isEdge .hbin = true ∧ draws .hbin = false ∧ (∃ t, exec .hbin State.reset = .next t) ∧ isEdge .present = false
    ∧ registerWritten .present = none ∧ ∃ t, exec .present State.reset = .next t :=
  ⟨default_wf, ⟨_, rfl⟩, rfl, rfl, rfl, rfl, rfl, ⟨_, rfl⟩, rfl, rfl, ⟨_, rfl⟩⟩

theorem witness_OneFramePerVbout : (∃ t, exec .vbout State.reset = .next t)
    ∧ ∃ t, execAll [.vbin true, .hbin] State.reset = .next t := ⟨reset_vbout, ⟨_, rfl⟩⟩

theorem witness_EventsFaultExactlyOutOfContract : isEvent (.vramwrL 0x7FFFE#24 0#32) = true
    ∧ inContract Config.default (.vramwrL 0x7FFFE#24 0#32) = false ∧ isEvent .vbout = true
    ∧ inContract Config.default .vbout = true := by decide +kernel

end Sys2Proof.Machine.Tests
end

/-! SUPPORT. What a step is, by the inbox and by what its head decodes to; later proofs about `step` cite these. -/

namespace Sys2Proof.Machine

/-- R234: with no event to take, the block is idle. -/
theorem step_of_inbox_nil {s : State} (h : s.inbox = []) : step s = .next s := by
  rw [step, runNext, h]

/-- R5, R223: the operation of a decoded event runs in the state that has taken the event. -/
theorem step_of_decode_ok {s : State} {inp : Input} {rest : List Input} {i : Instr} (h : s.inbox = inp :: rest)
    (hd : decode inp.w0 inp.w1 = .ok i) : step s = exec i (s.accept inp rest) := by
  rw [step, runNext, h]
  simp only [runInput, hd]

/-- R222, code 4: words that are no event fault with the header word, whatever the reason for which they are none. -/
theorem step_of_decode_error {s : State} {inp : Input} {rest : List Input} {e : DecodeError} (h : s.inbox = inp :: rest)
    (hd : decode inp.w0 inp.w1 = .error e) : step s = .fault (.badEvent inp.w0) := by
  rw [step, runNext, h]
  simp only [runInput, hd, raise]

/-- A table word is an instruction exactly when the decoder accepts its two event words. -/
theorem decodeTableWord_eq_some {nbits w : Nat} {i : Instr} :
    decodeTableWord nbits w = some i
      ↔ decode (BitVec.ofNat 32 (w % 2 ^ nbits)) (BitVec.ofNat 32 ((w % 2 ^ nbits) / 2 ^ 32)) = .ok i := by
  rw [decodeTableWord]
  split <;> simp_all

@[simp] theorem State.withFetchWord_inbox (s : State) (nbits w : Nat) : (s.withFetchWord nbits w).inbox
    = { w0 := BitVec.ofNat 32 (w % 2 ^ nbits), w1 := BitVec.ofNat 32 ((w % 2 ^ nbits) / 2 ^ 32), sprite := s.sprite }
      :: s.inbox := rfl

/-- Placing an event changes only the inbox, so taking one that samples the SPRITE port as it was gives the state back. -/
theorem State.accept_withFetchWord (s : State) (nbits w : Nat) {inp : Input} (h : inp.sprite = s.sprite) :
    (s.withFetchWord nbits w).accept inp s.inbox = s := by
  rw [State.accept, h]
  rfl

/-- Log entry 19: a table word that is an instruction, placed in a state, runs that instruction in that state. -/
theorem step_withFetchWord {s : State} {nbits w : Nat} {i : Instr} (h : decodeTableWord nbits w = some i) :
    step (s.withFetchWord nbits w) = exec i s := by
  rw [step_of_decode_ok (s.withFetchWord_inbox nbits w) (decodeTableWord_eq_some.mp h), State.accept_withFetchWord s nbits w rfl]

/-- Settles O4: the four cases of a step are the four laws of `step`. -/
theorem stepRunsTheDecodedEvent : Obligations.StepRunsTheDecodedEvent := by
  unfold Obligations.StepRunsTheDecodedEvent
  refine ⟨?taken, ?noEvent, ?idle, ?placed⟩
  case taken => exact fun _ _ _ _ h hd => step_of_decode_ok h hd
  case noEvent => exact fun _ _ _ _ h hd => step_of_decode_error h hd
  case idle => exact fun _ h => step_of_inbox_nil h
  case placed => exact fun _ _ _ _ h => step_withFetchWord h

end Sys2Proof.Machine

/-! SUPPORT. The invariant under each way an operation can end normally: the register write, the flag writes, the frame. -/

namespace Sys2Proof.Machine

variable {s : State}

/-- A register write in contract, with its trigger: at 0x000 the surface follows the decoded resolution (R83), and no other
register enters it. -/
theorem Inv.hostRegWrite (h : Inv s) {off : Nat} (v : Word16) (ho : offsetOk off = true) :
    Inv (afterRegWrite off (s.setBank (regPut s.reg off v))) := by
  obtain ⟨heven, -⟩ := (offsetOk_iff off).mp ho
  by_cases h0 : off = 0
  · subst h0
    exact h.putResolution v
  · rw [afterRegWrite_other _ h0]
    exact h.putOther v (by omega)

/-- SET of a flag of the status register. -/
theorem Inv.setFlag (h : Inv s) {f : Field} (hf : f.off = 4) : Inv (s.setBank (setFlag s.reg f)) :=
  h.putOther _ (by rw [hf]; decide)

/-- CLR of a flag of the status register. -/
theorem Inv.clrFlag (h : Inv s) {f : Field} (hf : f.off = 4) : Inv (s.setBank (clrFlag s.reg f)) :=
  h.putOther _ (by rw [hf]; decide)

/-- The flag updates of VBOUT. -/
theorem Inv.vboutFlags (h : Inv s) : Inv (vboutFlags s) := by
  obtain ⟨-, -, -, hvblank, -, hodd⟩ := RegMap.wf_offsets (Config.wf_regmap h.configWf)
  exact (h.clrFlag hvblank).setFlag hodd

/-- A host write of colour memory, mirrored in legacy mode. -/
theorem Inv.hostCramWrite (h : Inv s) (addr : Nat) (bytes : List Byte) :
    Inv (s.setCram (if cramModeOf s.config s.reg = .legacy
      then writeBytes (writeBytes s.cram cramBytes addr bytes) cramBytes (shadowAddr addr) bytes
      else writeBytes s.cram cramBytes addr bytes)) := by
  split
  · exact (h.writeCram addr bytes).writeCram (shadowAddr addr) bytes
  · exact h.writeCram addr bytes

/-- A frame that was drawn has the decoded resolution. -/
theorem Inv.drawFrame (h : Inv s) {port : SpritePort} {sf : Surface} (hd : drawFrame s.snap port = .ok sf) :
    Inv (s.setSurface sf) := by
  obtain ⟨hsize, hwf⟩ := drawFrame_ok hd
  exact h.setSurface hwf (hsize.trans h.surfaceSize.symm)

/-- A layer that was drawn left the size of the surface. -/
theorem Inv.drawLayer (h : Inv s) {port : SpritePort} {l : Layer} {sf : Surface}
    (hd : drawLayer s.snap port l s.surface = .ok sf) : Inv (s.setSurface sf) := by
  obtain ⟨hw, hh, hwf⟩ := drawLayer_ok hd
  exact h.setSurface hwf (Prod.ext hw hh)

/-- Every operation that ends normally keeps the invariant. -/
theorem Inv.exec (h : Inv s) {i : Instr} {t : State} (he : exec i s = .next t) : Inv t := by
  obtain ⟨-, -, -, hvblank, hhblank, -⟩ := RegMap.wf_offsets (Config.wf_regmap h.configWf)
  rcases exec_next_cases he with ⟨-, v, rfl⟩ | ⟨off, v, -, ho, rfl⟩ | ⟨-, a, bs, -, rfl⟩ | ⟨-, a, bs, -, -, rfl⟩ | ⟨-, rfl⟩
    | ⟨-, rfl⟩ | ⟨-, rfl⟩ | ⟨-, rfl⟩ | ⟨-, sf, hd, rfl⟩ | ⟨-, sf, hd, rfl⟩ | ⟨k, l, sf, -, -, hd, rfl⟩ | ⟨-, rfl⟩
  · exact h.reply v
  · exact h.hostRegWrite v ho
  · exact h.writeVram a bs
  · exact h.hostCramWrite a bs
  · exact (h.setFlag hhblank).emit _
  · exact (h.clrFlag hhblank).emit _
  · exact (h.setFlag hvblank).emit _
  · exact ((h.setFlag hvblank).emit _).emit _
  · exact ((h.vboutFlags.drawFrame hd).emit _).emit _
  · exact h.drawFrame hd
  · exact h.drawLayer hd
  · exact h.emit _

/-- Every step keeps the invariant: it does nothing, or it takes an event and runs one operation. -/
theorem Inv.step (h : Inv s) {t : State} (hs : step s = .next t) : Inv t := by
  rcases step_next_cases hs with ⟨-, rfl⟩ | ⟨inp, rest, i, -, -, he⟩
  · exact h
  · exact (h.accept inp rest).exec he

/-- Settles O3: by the list of the ways in which an operation can end normally. -/
theorem everyStepKeepsTheInvariant : Obligations.EveryStepKeepsTheInvariant := by
  unfold Obligations.EveryStepKeepsTheInvariant
  exact ⟨fun _ _ _ h he => h.exec he, fun _ _ h hs => h.step hs⟩

end Sys2Proof.Machine

/-! SUPPORT. What a well-formed configuration says of the layers' fields, and the ranges of what LAYER.INIT decodes from them. -/

namespace Sys2Proof

/-- A field of a given width lies in one register and has that width. -/
theorem Field.wfWidth_iff {n : Nat} {f : Field} : f.wfWidth n = true ↔ f.wf = true ∧ f.width = n := by
  simp [Field.wfWidth]

/-- The widths of the fields whose values a layer record bounds (R19 to R24). -/
theorem LayerFields.wf_widths {f : LayerFields} (h : f.wf = true) :
    f.chsz.wfWidth 1 = true ∧ f.mpof.wfWidth 3 = true ∧ f.mp.all (Field.wfWidth 8) = true
      ∧ f.scx.all (Field.wfWidth 11) = true ∧ f.scy.all (Field.wfWidth 11) = true ∧ f.caos.wfWidth 3 = true
      ∧ f.pri.wfWidth 3 = true := by
  simp only [LayerFields.wf, Bool.and_eq_true] at h
  tauto

/-- Every layer of a well-formed register map has well-formed fields. -/
theorem Config.wf_layerFields {c : Config} (h : c.wf = true) (l : Bg) : (Machine.layerFields c l).wf = true := by
  have hm := Machine.Config.wf_regmap h
  simp only [RegMap.wf, Bool.and_eq_true] at hm
  cases l <;> simp only [Machine.layerFields] <;> tauto

/-- Every layer has one selector byte for each plane of its map, which has 2 or 4 planes per side (R112). -/
theorem Config.wf_map {c : Config} (h : c.wf = true) (l : Bg) :
    (Machine.bgMapWH c l = 2 ∨ Machine.bgMapWH c l = 4)
      ∧ (Machine.layerFields c l).mp.length = Machine.bgMapWH c l * Machine.bgMapWH c l := by
  have hmap : (Machine.layerFields c l).mapWf (Machine.bgMapWH c l) = true := by
    simp only [Config.wf, Bool.and_eq_true] at h
    cases l <;> simp only [Machine.layerFields, Machine.bgMapWH] <;> tauto
  simpa [LayerFields.mapWf] using hmap

/-- A plane is 1 or 2 pages per side, for every value of PLSZ (R110). -/
theorem Config.wf_planeShape {c : Config} (h : c.wf = true) (v : Nat) :
    ((Machine.planeShapeOf c v).1 = 1 ∨ (Machine.planeShapeOf c v).1 = 2)
      ∧ ((Machine.planeShapeOf c v).2 = 1 ∨ (Machine.planeShapeOf c v).2 = 2) := by
  simp only [Config.wf, Bool.and_eq_true] at h
  have hall : c.planeShapes.all (fun p => (p.1 == 1 || p.1 == 2) && (p.2 == 1 || p.2 == 2)) = true := by tauto
  simp only [List.all_eq_true, Bool.and_eq_true, Bool.or_eq_true, beq_iff_eq] at hall
  rw [Machine.planeShapeOf, List.getD_eq_getElem?_getD]
  rcases hv : c.planeShapes[v]? with _ | p
  · simp
  · exact hall p (List.mem_of_getElem? hv)

namespace Machine

theorem fld_lt (reg : Bank) (f : Field) : fld reg f < 2 ^ f.width := Nat.mod_lt _ (by positivity)

/-- A field of `n` bits reads below `2 ^ n`. -/
theorem fld_lt_of_wfWidth {n : Nat} {f : Field} (h : f.wfWidth n = true) (reg : Bank) : fld reg f < 2 ^ n :=
  (Field.wfWidth_iff.mp h).2 ▸ fld_lt reg f

/-- So does a field that a layer may lack. -/
theorem fldOpt_lt_of_wfWidth {n : Nat} {o : Option Field} (h : o.all (Field.wfWidth n) = true) (reg : Bank) :
    fldOpt reg o < 2 ^ n := by
  cases o with
  | none => exact Nat.two_pow_pos n
  | some f => exact fld_lt_of_wfWidth h reg

/-- A colour-offset component is in the range of R194, whatever its field holds. -/
theorem offsetRange_offsetValue (reg : Bank) (f : Field) : offsetRange (offsetValue reg f) = true := by
  have hlow := BitVec.le_toInt (BitVec.ofNat 9 (fld reg f))
  have hhigh := BitVec.toInt_lt (x := BitVec.ofNat 9 (fld reg f))
  simp only [offsetRange, Bool.and_eq_true, decide_eq_true_eq]
  exact ⟨hlow, Int.le_of_lt_add_one hhigh⟩

/-- Every component of a layer's colour offset is in that range (R115). -/
theorem offsetRange_colorOffsetOf (c : Config) (reg : Bank) (l : Bg) :
    offsetRange (colorOffsetOf c reg l).r = true ∧ offsetRange (colorOffsetOf c reg l).g = true
      ∧ offsetRange (colorOffsetOf c reg l).b = true := by
  unfold colorOffsetOf
  simp only
  split
  · decide
  · split <;> simp only [offsetRange_offsetValue, and_self]

/-- The bitmap sizes of R118. -/
theorem bitmapSizeOf_range (v : Nat) :
    ((bitmapSizeOf v).1 = 512 ∨ (bitmapSizeOf v).1 = 1024) ∧ ((bitmapSizeOf v).2 = 256 ∨ (bitmapSizeOf v).2 = 512) := by
  unfold bitmapSizeOf
  split <;> decide

theorem bgRank_le (l : Bg) : bgRank l ≤ 4 := by cases l <;> decide

/-- The values of CHCN that name a depth (R109). -/
theorem depthOf_ok {n : Nat} (h : n ≤ 4) : ∃ d, depthOf n = .ok d := by
  interval_cases n <;> exact ⟨_, rfl⟩

/-- The values of CHCN that are reserved (R109). -/
theorem depthOf_reserved {n : Nat} (h : 5 ≤ n) : depthOf n = .error .reservedDepth := by
  obtain ⟨k, rfl⟩ := Nat.exists_eq_add_of_le' h
  rfl

/-- LAYER.INIT of a layer whose CHCN names a depth answers its record (R105). -/
theorem exec_layerInit_ok {s : State} {l : Bg} {d : Depth} (h : depthOf (fld s.reg (layerFields s.config l).chcn) = .ok d) :
    exec (.layerInit l) s = .next (s.reply (.layerCfg (layerRecord s.snap l d))) := by
  simp [exec, execLayerInit, layerInitOf, h]

/-- LAYER.INIT of a layer with a reserved CHCN is refused (R109, R224; log entry 26). -/
theorem exec_layerInit_error {s : State} {l : Bg} {r : Refusal}
    (h : depthOf (fld s.reg (layerFields s.config l).chcn) = .error r) : exec (.layerInit l) s = .refused r := by
  simp [exec, execLayerInit, layerInitOf, h, refuse]

/-- The record that LAYER.INIT derives under a well-formed configuration is well-formed. -/
theorem layerRecord_wf (v : Snap) (h : v.config.wf = true) (l : Bg) (d : Depth) : (layerRecord v l d).wf = true := by
  obtain ⟨hchsz, hmpof, hmp, hscx, hscy, hcaos, hpri⟩ := LayerFields.wf_widths (Config.wf_layerFields h l)
  obtain ⟨hside, hsel⟩ := Config.wf_map h l
  obtain ⟨hpw, hph⟩ := Config.wf_planeShape h (fld v.reg (layerFields v.config l).plsz)
  obtain ⟨hbw, hbh⟩ := bitmapSizeOf_range (fldOpt v.reg (layerFields v.config l).bmsz)
  obtain ⟨hr, hg, hb⟩ := offsetRange_colorOffsetOf v.config v.reg l
  simp only [LayerCfg.wf, Bool.and_eq_true, Bool.or_eq_true, beq_iff_eq, decide_eq_true_eq, List.all_eq_true, and_assoc]
  simp only [layerRecord]
  refine ⟨hpw, hph, hside, ?nameSize, ?patternSize, trivial, ?selectors, Nat.le_of_lt_succ (fldOpt_lt_of_wfWidth hscx _),
    Nat.le_of_lt_succ (fldOpt_lt_of_wfWidth hscy _), Nat.le_of_lt_succ (fld_lt_of_wfWidth hmpof _), ?selector,
    Nat.le_of_lt_succ (fld_lt_of_wfWidth hcaos _), Nat.le_of_lt_succ (fld_lt_of_wfWidth hpri _), bgRank_le l, hbw, hbh, hr, hg,
    hb, ?rotation⟩
  case nameSize => split <;> simp
  case patternSize =>
    have := fld_lt_of_wfWidth hchsz v.reg
    omega
  case selectors => rw [List.length_map, hsel]
  case selector =>
    intro x hx
    obtain ⟨f, hf, rfl⟩ := List.mem_map.mp hx
    exact Nat.le_of_lt_succ (fld_lt_of_wfWidth (List.all_eq_true.mp hmp f hf) v.reg)
  case rotation => cases l <;> rfl

/-- Settles O26: the record's fields are as wide as R19 to R24 make them, and CHCN alone is refused. -/
theorem layerRecordsAreInRange : Obligations.LayerRecordsAreInRange := by
  unfold Obligations.LayerRecordsAreInRange
  intro s l hwf
  refine ⟨fun h => ?_, fun h => exec_layerInit_error (depthOf_reserved h)⟩
  obtain ⟨d, hd⟩ := depthOf_ok h
  exact ⟨layerRecord s.snap l d, exec_layerInit_ok hd, rfl, layerRecord_wf s.snap hwf l d⟩

end Machine

end Sys2Proof

/-! SUPPORT. The launch states (R240): every register, every field and the resolution. -/

namespace Sys2Proof.Machine

theorem Config.default_wf : Config.default.wf = true := by decide

variable (vram cram : Memory) (px : Pixels)

/-- R30: every register reads 0. -/
theorem regGet_launch (off : Nat) : regGet (launch vram cram px).reg off = 0#16 := by
  change ((Vector.replicate 256 0#16)[off / 2]?).getD 0#16 = 0#16
  rw [Vector.getElem?_replicate]
  split <;> rfl

/-- So every field reads 0, whatever the register map. -/
theorem fld_launch (f : Field) : fld (launch vram cram px).reg f = 0 := by
  rw [fld, regGet_launch, BitVec.toNat_ofNat, Nat.zero_mod, Nat.zero_shiftRight, Nat.zero_mod]

theorem fldOpt_launch (o : Option Field) : fldOpt (launch vram cram px).reg o = 0 := by
  cases o with
  | none => rfl
  | some f => exact fld_launch vram cram px f

@[simp] theorem launch_config : (launch vram cram px).config = Config.default := rfl

/-- R30, R84: the resolution that HRESO, VRESO and LSMD select at 0. -/
theorem resolution_launch : resolution (launch vram cram px).config (launch vram cram px).reg = (320, 224) := by
  simp only [resolution, fld_launch]
  rfl

/-- R30, R91: the mode that CRMD selects at 0. -/
theorem cramModeOf_launch : cramModeOf (launch vram cram px).config (launch vram cram px).reg = .legacy := by
  rw [cramModeOf, fld_launch]
  rfl

variable {vram cram px}

/-- A launch state meets the invariant where its memories and its surface are well-formed. -/
theorem launch_inv (hvwf : vram.wf) (hvin : vram.within 0x80000) (hcwf : cram.wf) (hcin : cram.within 0x1000)
    (hpx : Surface.wf { w := 320, h := 224, px := px }) : Inv (launch vram cram px) where
  configWf := Config.default_wf
  vramWf := hvwf
  vramWithin := hvin
  cramWf := hcwf
  cramWithin := hcin
  surfaceWf := hpx
  surfaceSize := (resolution_launch vram cram px).symm

/-- Settles O2: the reset state is the launch state with nothing listed. -/
theorem invariantHoldsAtLaunch : Obligations.InvariantHoldsAtLaunch := by
  unfold Obligations.InvariantHoldsAtLaunch
  refine ⟨fun _ _ _ hvwf hvin hcwf hcin hpx => launch_inv hvwf hvin hcwf hcin hpx, ?_⟩
  exact launch_inv (vram := []) (cram := []) (px := .unspecified 0) .nil nofun .nil nofun trivial

/-- Settles O1: every field reads 0 (R30), and the rest is what the default tables hold at 0. -/
theorem resetRegistersAndDerivedValues : Obligations.ResetRegistersAndDerivedValues := by
  unfold Obligations.ResetRegistersAndDerivedValues
  intro vram cram px
  refine ⟨regGet_launch vram cram px, fld_launch vram cram px _, fld_launch vram cram px _, fld_launch vram cram px _,
    fld_launch vram cram px _, cramModeOf_launch vram cram px, resolution_launch vram cram px, fun l => ?_⟩
  have hdepth : depthOf (fld (launch vram cram px).reg (layerFields (launch vram cram px).config l).chcn) = .ok .d0 := by
    rw [fld_launch]
    rfl
  refine ⟨layerRecord (launch vram cram px).snap l .d0, exec_layerInit_ok hdepth, ?_⟩
  simp [layerRecord, bgEnabled, colorOffsetOf, alphaOf, planeShapeOf, fld_launch, fldOpt_launch, Config.default]

end Sys2Proof.Machine

/-! SUPPORT. Answering operations (R45), and what each kind of operation may write (R51, R229). -/

namespace Sys2Proof.Machine

section Kinds

variable {i : Instr}

/-- An operation that only answers is of none of the kinds that write, draw or present. -/
theorem onlyAnswers_iff : onlyAnswers i = true ↔ registerWritten i = none ∧ isVramWrite i = false ∧ isCramWrite i = false
    ∧ isEdge i = false ∧ draws i = false ∧ presents i = false := by
  simp [onlyAnswers, and_assoc]

/-- A timing edge is no host register write. -/
theorem registerWritten_of_isEdge (h : isEdge i = true) : registerWritten i = none := by
  cases i
  case hbin | hbout | vbin | vbout => rfl
  all_goals cases h

end Kinds

/-- Settles O57: of the ways to end normally, every one but the answer belongs to an operation of another kind. -/
theorem answeringOperationsChangeNothing : Obligations.AnsweringOperationsChangeNothing := by
  unfold Obligations.AnsweringOperationsChangeNothing
  intro i s t ha he
  obtain ⟨hreg, hvram, hcram, hedge, hdraw, hpresent⟩ := onlyAnswers_iff.mp ha
  rcases exec_next_cases he with ⟨-, hv⟩ | ⟨off, v, hr, -⟩ | ⟨hw, -⟩ | ⟨hw, -⟩ | ⟨rfl, -⟩ | ⟨rfl, -⟩ | ⟨rfl, -⟩ | ⟨rfl, -⟩
    | ⟨rfl, -⟩ | ⟨rfl, -⟩ | ⟨k, l, sf, rfl, -⟩ | ⟨rfl, -⟩
  · exact hv
  · cases hreg.symm.trans hr
  · cases hvram.symm.trans hw
  · cases hcram.symm.trans hw
  · cases hedge
  · cases hedge
  · cases hedge
  · cases hedge
  · cases hedge
  · cases hdraw
  · cases hdraw
  · cases hpresent

/-! ## The status register -/

/-- `reg'` differs from `reg` in the three flags of the status register at most (R13). -/
def OnlyFlagsDiffer (m : RegMap) (reg reg' : Bank) : Prop :=
  (∀ o, o % 2 = 0 → o ≤ 0x1FE → o ≠ 0x004 → regGet reg' o = regGet reg o)
    ∧ ∀ j, j < 16 → j ≠ m.hblank.lsb → j ≠ m.vblank.lsb → j ≠ m.odd.lsb →
      (regGet reg' 0x004).getLsbD j = (regGet reg 0x004).getLsbD j

namespace OnlyFlagsDiffer

variable {m : RegMap} {reg reg' reg'' : Bank} {f : Field}

theorem trans (h : OnlyFlagsDiffer m reg reg') (h' : OnlyFlagsDiffer m reg' reg'') : OnlyFlagsDiffer m reg reg'' := by
  obtain ⟨hothers, hbits⟩ := h
  obtain ⟨hothers', hbits'⟩ := h'
  exact ⟨fun o h1 h2 h3 => (hothers' o h1 h2 h3).trans (hothers o h1 h2 h3),
    fun j h1 h2 h3 h4 => (hbits' j h1 h2 h3 h4).trans (hbits j h1 h2 h3 h4)⟩

/-- A store to the status register that keeps every bit but one flag's. -/
theorem putFlag (hoff : f.off = 4) (hf : f = m.hblank ∨ f = m.vblank ∨ f = m.odd) {v : Word16}
    (hv : ∀ j, j < 16 → j ≠ f.lsb → (regGet (regPut reg f.off v) f.off).getLsbD j = (regGet reg f.off).getLsbD j) :
    OnlyFlagsDiffer m reg (regPut reg f.off v) := by
  refine ⟨fun o _ _ hne => regGet_regPut_other reg v (by omega), fun j hj hhblank hvblank hodd => ?_⟩
  have hne : j ≠ f.lsb := by rcases hf with rfl | rfl | rfl <;> assumption
  exact hoff ▸ hv j hj hne

/-- SET of one of the three flags. -/
theorem setFlag (hoff : f.off = 4) (hf : f = m.hblank ∨ f = m.vblank ∨ f = m.odd) (reg : Bank) :
    OnlyFlagsDiffer m reg (setFlag reg f) :=
  putFlag hoff hf fun j hj hne => (setFlag_getLsbD reg f (by omega) j hj).trans (by simp [hne])

/-- CLR of one of the three flags. -/
theorem clrFlag (hoff : f.off = 4) (hf : f = m.hblank ∨ f = m.vblank ∨ f = m.odd) (reg : Bank) :
    OnlyFlagsDiffer m reg (clrFlag reg f) :=
  putFlag hoff hf fun j hj hne => (clrFlag_getLsbD reg f (by omega) j hj).trans (by simp [hne])

end OnlyFlagsDiffer

/-! ## Who writes what -/

/-- What an operation writes on its way from `s` to the state it ends in: a register, one of the memories, the flags at an edge
(with the frame, at VBOUT), or the surface and the logs alone. -/
inductive Writes (i : Instr) (s : State) : State → Prop where
  | register {off : Nat} (v : Word16) (written : registerWritten i = some off) (even : offsetOk off = true) :
      Writes i s (afterRegWrite off (s.setBank (regPut s.reg off v)))
  | vram (m : Memory) (written : isVramWrite i = true) : Writes i s (s.setVram m)
  | cram (m : Memory) (written : isCramWrite i = true) : Writes i s (s.setCram m)
  | edge {reg : Bank} {sf : Surface} (out : List Output) (isEdge : isEdge i = true)
      (flags : OnlyFlagsDiffer s.config.regmap s.reg reg) (surface : draws i = false → sf = s.surface) :
      Writes i s { s with reg := reg, surface := sf, outputs := out }
  | surface {sf : Surface} (ans : List Answer) (out : List Output) (surface : draws i = false → sf = s.surface) :
      Writes i s { s with surface := sf, answers := ans, outputs := out }

/-- Every operation that ends normally writes in one of these ways. -/
theorem exec_writes {i : Instr} {s t : State} (hwf : s.config.wf = true) (h : exec i s = .next t) : Writes i s t := by
  obtain ⟨-, -, -, hvblank, hhblank, hodd⟩ := RegMap.wf_offsets (Config.wf_regmap hwf)
  rcases exec_next_cases h with ⟨-, v, rfl⟩ | ⟨off, v, hr, ho, rfl⟩ | ⟨hw, a, bs, -, rfl⟩ | ⟨hw, a, bs, -, -, rfl⟩ | ⟨rfl, rfl⟩
    | ⟨rfl, rfl⟩ | ⟨rfl, rfl⟩ | ⟨rfl, rfl⟩ | ⟨rfl, sf, -, rfl⟩ | ⟨rfl, sf, -, rfl⟩ | ⟨k, l, sf, rfl, -, -, rfl⟩ | ⟨rfl, rfl⟩
  · exact .surface _ _ fun _ => rfl
  · exact .register v hr ho
  · exact .vram _ hw
  · exact .cram _ hw
  · exact .edge _ rfl (.setFlag hhblank (.inl rfl) _) fun _ => rfl
  · exact .edge _ rfl (.clrFlag hhblank (.inl rfl) _) fun _ => rfl
  · exact .edge _ rfl (.setFlag hvblank (.inr (.inl rfl)) _) fun _ => rfl
  · exact .edge _ rfl (.setFlag hvblank (.inr (.inl rfl)) _) fun _ => rfl
  · have hflags := (OnlyFlagsDiffer.clrFlag hvblank (.inr (.inl rfl)) s.reg).trans (.setFlag hodd (.inr (.inr rfl)) _)
    exact .edge (sf := sf) _ rfl hflags nofun
  · exact .surface (sf := sf) _ _ nofun
  · exact .surface (sf := sf) _ _ nofun
  · exact .surface _ _ fun _ => rfl

/-- Settles O58: what each way of writing leaves as it was; an edge is no register write. -/
theorem whoWritesWhat : Obligations.WhoWritesWhat := by
  unfold Obligations.WhoWritesWhat
  intro i s t hwf he
  cases exec_writes hwf he with
  | @register off v hr ho =>
    obtain ⟨hreg, hvram, hcram, hinbox, hsprite, -, -, hconfig⟩ := afterRegWrite_frame off (s.setBank (regPut s.reg off v))
    refine ⟨hconfig, hinbox, hsprite, fun _ => hvram, fun _ => hcram, fun h => ?noRegister, fun _ h o heven _ hne => ?others,
      fun h => ?noEdge, fun _ h => ?noTrigger⟩
    case noRegister => cases h.symm.trans hr
    case others =>
      cases hr.symm.trans h
      obtain ⟨hoff, -⟩ := (offsetOk_iff off).mp ho
      rw [hreg]
      exact regGet_regPut_other _ _ (by omega)
    case noEdge => cases (registerWritten_of_isEdge h).symm.trans hr
    case noTrigger => rw [afterRegWrite_other _ fun h0 => h (h0 ▸ hr), State.setBank_surface]
  | vram m hw => simp [hw]
  | cram m hw => simp [hw]
  | edge out hedge hflags hsf =>
    refine ⟨rfl, rfl, rfl, fun _ => rfl, fun _ => rfl, fun _ h => ?notAnEdge, fun off h => ?noRegister, fun _ => hflags,
      fun h _ => hsf h⟩
    case notAnEdge => cases hedge.symm.trans h
    case noRegister => cases (registerWritten_of_isEdge hedge).symm.trans h
  | surface ans out hsf => simpa using fun h _ => hsf h

end Sys2Proof.Machine

/-! SUPPORT. Bytes of a wide write read back at other widths (R41). -/

namespace Sys2Proof.Machine

open Sys2Proof.Claims

theorem regByte_even (reg : Bank) {off : Nat} (h : off % 2 = 0) : (regByte reg off).toNat = (regGet reg off).toNat / 256 := by
  have := (regGet reg off).isLt
  rw [regByte, if_pos h, BitVec.extractLsb'_toNat, Nat.shiftRight_eq_div_pow]
  omega

theorem regByte_odd (reg : Bank) {off : Nat} (h : off % 2 = 0) :
    (regByte reg (off + 1)).toNat = (regGet reg off).toNat % 256 := by
  rw [regByte, if_neg (by omega), Nat.add_sub_cancel, BitVec.extractLsb'_toNat, Nat.shiftRight_zero]

theorem regLong_toNat (reg : Bank) (off : Nat) :
    (regLong reg off).toNat = (regGet reg off).toNat * 65536 + (regGet reg (off + 2)).toNat :=
  append_toNat _ _

/-- The bytes of a write inside a space, read one by one. -/
theorem readByte_writeBytes (sp : Space) (m : Memory) {size a k : Nat} {bs : List Byte} (ha : a + bs.length ≤ size)
    (hk : k < bs.length) : readByte sp (writeBytes m size a bs) size (a + k) = bs.getD k 0 := by
  rw [readByte_of_lt _ _ (by omega), memGet_writeBytes sp size bs m a _ ha, if_pos (by omega), Nat.add_sub_cancel_left]

/-- A word of a write inside a space, as a number. -/
theorem read16_writeBytes (sp : Space) (m : Memory) {size a k : Nat} {bs : List Byte} (ha : a + bs.length ≤ size)
    (hk : k + 1 < bs.length) : (read16 sp (writeBytes m size a bs) size (a + k)).toNat
      = (bs.getD k 0).toNat * 256 + (bs.getD (k + 1) 0).toNat := by
  rw [read16_toNat, readByte_writeBytes sp m ha (Nat.lt_of_succ_lt hk), Nat.add_assoc, readByte_writeBytes sp m ha hk]

theorem accessOk_iff (size addr n : Nat) : accessOk size addr n = true ↔ addr % n = 0 ∧ addr + n ≤ size := by simp [accessOk]

/-- Addresses of video memory do not wrap in the 24 bits of an event (R60). -/
theorem Config.wf_vramBytes_le {c : Config} (h : c.wf = true) : c.vramBytes ≤ 2 ^ 24 := by
  simp only [Config.wf, Bool.and_eq_true, decide_eq_true_eq] at h
  tauto

/-- So the address `k` bytes further on in video memory is the number `k` further on. -/
theorem addr_add_toNat {c : Config} (hc : c.wf = true) {a : BitVec 24} {k : Nat} (h : a.toNat + k < c.vramBytes) :
    (a + BitVec.ofNat 24 k).toNat = a.toNat + k := by
  have := Config.wf_vramBytes_le hc
  simp only [BitVec.toNat_add, BitVec.toNat_ofNat]
  omega

section
variable {s : State} {a : BitVec 24}

/-- VRAMWR.B in contract (R87). -/
theorem exec_vramwrB_ok (val : Byte) (h : a.toNat + 1 ≤ s.config.vramBytes) :
    exec (.vramwrB a val) s = .next (s.setVram (writeBytes s.vram s.config.vramBytes a.toNat [val])) :=
  hostVramWrite_next.mpr ⟨(accessOk_iff _ _ _).mpr ⟨Nat.mod_one _, h⟩, rfl⟩

/-- VRAMWR.L in contract (R87). -/
theorem exec_vramwrL_ok (val : Word32) (heven : a.toNat % 4 = 0) (h : a.toNat + 4 ≤ s.config.vramBytes) :
    exec (.vramwrL a val) s = .next (s.setVram (writeBytes s.vram s.config.vramBytes a.toNat (bytesOf32 val))) :=
  hostVramWrite_next.mpr ⟨(accessOk_iff _ _ _).mpr ⟨heven, h⟩, rfl⟩

/-- VRAMRD.B in contract (R88). -/
theorem answers_vramrdB (h : a.toNat + 1 ≤ s.config.vramBytes) :
    Answers s (.vramrdB a) (.byte (readByte .vram s.vram s.config.vramBytes a.toNat)) := by
  rw [Answers, exec, execVramrdB]
  exact hostVramRead_next.mpr ⟨(accessOk_iff _ _ _).mpr ⟨Nat.mod_one _, h⟩, rfl⟩

/-- VRAMRD.W in contract (R88). -/
theorem answers_vramrdW (heven : a.toNat % 2 = 0) (h : a.toNat + 2 ≤ s.config.vramBytes) :
    Answers s (.vramrdW a) (.word (read16 .vram s.vram s.config.vramBytes a.toNat)) := by
  rw [Answers, exec, execVramrdW]
  exact hostVramRead_next.mpr ⟨(accessOk_iff _ _ _).mpr ⟨heven, h⟩, rfl⟩

/-- Two byte writes side by side, as one write of two bytes. -/
theorem execAll_vramwrB_pair (hc : s.config.wf = true) (hi lo : Byte) (h : a.toNat + 2 ≤ s.config.vramBytes) :
    execAll [.vramwrB a hi, .vramwrB (a + 1) lo] s
      = .next (s.setVram (writeBytes s.vram s.config.vramBytes a.toNat [hi, lo])) := by
  have hnext : (a + 1).toNat = a.toNat + 1 := addr_add_toNat hc (k := 1) (by omega)
  rw [execAll, exec_vramwrB_ok hi (by omega)]
  simp only [execAll]
  rw [exec_vramwrB_ok lo (by simp only [State.setVram_config]; omega), hnext]
  rfl

end

/-- Settles O19: by the bytes that each write leaves at each of its addresses. -/
theorem viewsAndMixedWidthsAreBigEndian : Obligations.ViewsAndMixedWidthsAreBigEndian := by
  unfold Obligations.ViewsAndMixedWidthsAreBigEndian
  refine ⟨fun reg off h _ => ⟨regByte_even reg h, regByte_odd reg h⟩, fun reg off _ _ => regLong_toNat reg off, ?pair, ?long⟩
  case pair =>
    intro s a hi lo hinv heven hin
    exact ⟨_, _, execAll_vramwrB_pair hinv.configWf hi lo hin, answers_vramrdW heven hin,
      read16_writeBytes .vram s.vram (k := 0) (bs := [hi, lo]) hin Nat.one_lt_two⟩
  case long =>
    intro s a val hinv heven hin
    have hhalf : (a + 2).toNat = a.toNat + 2 := addr_add_toNat hinv.configWf (k := 2) (by omega)
    refine ⟨_, _, _, exec_vramwrL_ok val heven hin, answers_vramrdW (by omega) (hhalf ▸ hin), ?half,
      answers_vramrdB (Nat.le_trans (by omega) hin), ?first⟩
    case half =>
      have hbytes : (val.extractLsb' 8 8).toNat * 256 + (val.extractLsb' 0 8).toNat = val.toNat % 65536 := by
        simp only [BitVec.extractLsb'_toNat, Nat.shiftRight_eq_div_pow]
        omega
      rw [hhalf, ← hbytes]
      exact read16_writeBytes .vram s.vram (k := 2) (bs := bytesOf32 val) hin (show 3 < 4 by decide)
    case first =>
      have hbyte : (val.extractLsb' 24 8).toNat = val.toNat / 2 ^ 24 := by
        have := val.isLt
        rw [BitVec.extractLsb'_toNat, Nat.shiftRight_eq_div_pow]
        omega
      rw [← hbyte]
      exact congrArg BitVec.toNat (readByte_writeBytes .vram s.vram (k := 0) (bs := bytesOf32 val) hin (show 0 < 4 by decide))

end Sys2Proof.Machine

/-! SUPPORT. The frame under a change of the status register: no rule of drawing reads it (R47, R209, R249). -/

namespace Sys2Proof.Machine

/-! ## A pixel depends on the registers by the colour-memory mode alone -/

section Mode

variable {v : Snap} {r : Bank} (h : cramModeOf v.config r = cramModeOf v.config v.reg)
include h

theorem resolve_setReg (index : Nat) (alpha : Byte) (bankSel : Nat) :
    resolve { v with reg := r } index alpha bankSel = resolve v index alpha bankSel := by
  simp only [resolve, h]
  rfl

theorem palettePixel_setReg (cfg : LayerCfg) (dot index : Nat) :
    palettePixel { v with reg := r } cfg dot index = palettePixel v cfg dot index := by
  simp only [palettePixel, resolve_setReg h]

theorem pixelAtDepth_setReg (cfg : LayerCfg) (palAddr : BitVec 7) (a : Nat × Nat) :
    pixelAtDepth { v with reg := r } cfg palAddr a = pixelAtDepth v cfg palAddr a := by
  unfold pixelAtDepth
  cases cfg.depth with
  | d0 | d1 | d2 => exact palettePixel_setReg h cfg _ _
  | d3 | d4 => rfl

theorem layerPixelWith_setReg (cfg : LayerCfg) (p : PixelPath) (sx sy : Nat) :
    layerPixelWith { v with reg := r } cfg p sx sy = layerPixelWith v cfg p sx sy := by
  cases p with
  | bitmap => exact pixelAtDepth_setReg h cfg _ _
  | tile f => exact pixelAtDepth_setReg h cfg _ _

end Mode

/-! ## A layer record depends on its fields and the address of the rotation table alone -/

/-- The register fields that LAYER.INIT reads for a layer (R105). -/
def recordFields (c : Config) (l : Bg) : List Field :=
  let f := layerFields c l
  let m := c.regmap
  [f.on, f.tpdis, f.chsz, f.chcn, f.pnb, f.cnsm, f.supp, f.plsz, f.mpof, f.caos, f.pri, f.ccen, f.ccrt, f.coen, f.cosl,
      m.coar, m.coag, m.coab, m.cobr, m.cobg, m.cobb, m.charext]
    ++ f.mp ++ f.bmen.toList ++ f.bmsz.toList ++ f.bmp.toList ++ f.scx.toList ++ f.scy.toList

theorem fldOpt_congr {reg r : Bank} {o : Option Field} (h : ∀ f ∈ o.toList, fld r f = fld reg f) : fldOpt r o = fldOpt reg o := by
  cases o with
  | none => rfl
  | some f => exact h f (List.mem_singleton_self f)

section Record

variable {v : Snap} {r : Bank} {l : Bg} (hf : ∀ f ∈ recordFields v.config l, fld r f = fld v.reg f)
  (ht : rotTableAddr v.config r = rotTableAddr v.config v.reg)

include ht in
theorem rotLoadTable_setReg : rotLoadTable { v with reg := r } = rotLoadTable v := by
  simp only [rotLoadTable, ht]
  rfl

include hf ht in
theorem layerInitOf_setReg : layerInitOf { v with reg := r } l = layerInitOf v l := by
  simp only [recordFields, List.forall_mem_append, List.forall_mem_cons] at hf
  obtain ⟨⟨⟨⟨⟨⟨hfields, hmp⟩, hbmen⟩, hbmsz⟩, hbmp⟩, hscx⟩, hscy⟩ := hf
  have hrec (d : Depth) : layerRecord { v with reg := r } l d = layerRecord v l d := by
    simp only [layerRecord, bgEnabled, colorOffsetOf, alphaOf, offsetValue, rotLoadTable_setReg ht, hfields, fldOpt_congr hbmen,
      fldOpt_congr hbmsz, fldOpt_congr hbmp, fldOpt_congr hscx, fldOpt_congr hscy, List.map_congr_left hmp]
  simp only [layerInitOf, hfields, hrec]

end Record

/-! ## The status register enters no field that drawing reads, under the default register map -/

section Status

variable (reg : Bank) (w : Word16)

theorem fld_putStatus {f : Field} (h : 2 ≠ f.off / 2) : fld (regPut reg 4 w) f = fld reg f :=
  fld_regPut_other reg f w h

theorem cramModeOf_putStatus : cramModeOf Config.default (regPut reg 4 w) = cramModeOf Config.default reg := by
  rw [cramModeOf, cramModeOf, fld_putStatus reg w (by decide)]

theorem rotTableAddr_putStatus : rotTableAddr Config.default (regPut reg 4 w) = rotTableAddr Config.default reg := by
  have hrpta : regLong (regPut reg 4 w) Config.default.regmap.rpta = regLong reg Config.default.regmap.rpta := by
    rw [regLong, regLong, regGet_regPut_other reg w (by decide), regGet_regPut_other reg w (by decide)]
  rw [rotTableAddr, hrpta, rotTableAddr]

/-- No field of a layer record stands in the status register. -/
theorem recordFields_default (l : Bg) : ∀ f ∈ recordFields Config.default l, 2 ≠ f.off / 2 := by
  cases l <;> decide

theorem drawOrder_putStatus (port : SpritePort) :
    drawOrder Config.default (regPut reg 4 w) port = drawOrder Config.default reg port := by
  have hpri : priorityOf Config.default (regPut reg 4 w) port = priorityOf Config.default reg port := by
    funext l
    cases l with
    | sprite => rfl
    | bg b => exact fld_putStatus reg w (recordFields_default b _ (by simp [recordFields]))
  have hon : layerEnabled Config.default (regPut reg 4 w) port = layerEnabled Config.default reg port := by
    funext l
    cases l with
    | sprite => rfl
    | bg b => rw [layerEnabled, bgEnabled, fld_putStatus reg w (recordFields_default b _ (by simp [recordFields]))]; rfl
  have hbefore : drawnBefore Config.default (regPut reg 4 w) port = drawnBefore Config.default reg port := by
    funext l m
    simp only [drawnBefore, hpri]
  have hkept : layerKept Config.default (regPut reg 4 w) port = layerKept Config.default reg port := by
    funext l
    simp only [layerKept, hpri, hon]
  rw [drawOrder, hbefore, hkept, drawOrder]

variable {v : Snap} (hc : v.config = Config.default)
include hc

theorem layerSource_putStatus (port : SpritePort) (l : Layer) :
    layerSource { v with reg := regPut v.reg 4 w } port l = layerSource v port l := by
  cases l with
  | sprite => rfl
  | bg b =>
    have hinit : layerInitOf { v with reg := regPut v.reg 4 w } b = layerInitOf v b :=
      layerInitOf_setReg (fun f h => fld_putStatus v.reg w (recordFields_default b f (hc ▸ h)))
        (hc ▸ rotTableAddr_putStatus v.reg w)
    have hpixel : shadedPixel { v with reg := regPut v.reg 4 w } = shadedPixel v := by
      funext cfg p x y
      rw [shadedPixel, layerPixelWith_setReg (hc ▸ cramModeOf_putStatus v.reg w), shadedPixel]
    simp only [layerSource, hinit, hpixel]

theorem drawLayers_putStatus (port : SpritePort) (ls : List Layer) (sf : Surface) :
    drawLayers { v with reg := regPut v.reg 4 w } port ls sf = drawLayers v port ls sf := by
  induction ls generalizing sf with
  | nil => rfl
  | cons l rest ih => simp only [drawLayers, drawLayer, layerSource_putStatus w hc, ih]

theorem clearedSurface_putStatus : clearedSurface { v with reg := regPut v.reg 4 w } = clearedSurface v := by
  have hres : resolution v.config (regPut v.reg 4 w) = resolution v.config v.reg :=
    resolution_regPut_other (hc ▸ Config.default_wf) v.reg w (by decide)
  rw [clearedSurface, hres, clearedSurface]

/-- R249: the flags of the status register do not enter the frame. -/
theorem drawFrame_putStatus (port : SpritePort) : drawFrame { v with reg := regPut v.reg 4 w } port = drawFrame v port := by
  have hdisp : displayOn { v with reg := regPut v.reg 4 w } = displayOn v := by
    rw [displayOn, hc, fld_putStatus v.reg w (by decide), displayOn, hc]
  have horder : drawOrder v.config (regPut v.reg 4 w) port = drawOrder v.config v.reg port := hc ▸ drawOrder_putStatus v.reg w port
  simp only [drawFrame, hdisp, horder, clearedSurface_putStatus w hc, drawLayers_putStatus w hc]

end Status

/-- Banks that agree beside one register are the same up to a write of it. -/
theorem eq_regPut_of_others {reg reg' : Bank} {off : Nat}
    (h : ∀ o, o % 2 = 0 → o ≤ 0x1FE → o ≠ off → regGet reg' o = regGet reg o) (heven : off % 2 = 0) :
    reg' = regPut reg off (regGet reg' off) := by
  apply Vector.ext
  intro i hi
  have hget (r : Bank) : regGet r (2 * i) = r[i] := by simp [regGet, hi]
  rw [← hget, ← hget]
  by_cases ho : 2 * i = off
  · rw [ho, regGet_regPut_same _ _ _ (by omega)]
  · rw [regGet_regPut_other _ _ (by omega), h _ (Nat.mul_mod_right 2 i) (by omega) ho]

/-- DRAWFRAME is the frame of the snapshot and the SPRITE port, put on the surface. -/
theorem exec_drawframe_ok {s : State} {sf : Surface} (h : drawFrame s.snap s.sprite = .ok sf) :
    exec .drawframe s = .next (s.setSurface sf) := by
  simp only [exec, execDrawframe, drawFrameOn, h]

theorem exec_drawframe_error {s : State} {r : Refusal} (h : drawFrame s.snap s.sprite = .error r) :
    exec .drawframe s = .refused r := by
  simp only [exec, execDrawframe, drawFrameOn, h, refuse]

/-- Settles O50: the two snapshots are one up to a write of the status register, which the frame does not depend on. -/
theorem frameDependsOnTheSnapshotOnly : Obligations.FrameDependsOnTheSnapshotOnly := by
  unfold Obligations.FrameDependsOnTheSnapshotOnly
  intro s s' hc hc' hvram hcram hsprite hregs
  have hsnap : s.snap = { s'.snap with reg := regPut s'.reg 4 (regGet s.reg 4) } := by
    rw [State.snap, State.snap, ← eq_regPut_of_others hregs rfl, hc, hc', hvram, hcram]
  have hframe : drawFrame s.snap s.sprite = drawFrame s'.snap s'.sprite := by
    rw [hsnap, hsprite]
    exact drawFrame_putStatus _ hc' s'.sprite
  cases hd : drawFrame s'.snap s'.sprite with
  | ok sf => exact .inl ⟨sf, exec_drawframe_ok (hframe.trans hd), exec_drawframe_ok hd⟩
  | error r => exact .inr ⟨r, exec_drawframe_error (hframe.trans hd), exec_drawframe_error hd⟩

end Sys2Proof.Machine

/-! SUPPORT. The fields of a word, as numbers. -/

namespace Sys2Proof

section Fields

variable {n : Nat} (w : BitVec n)

/-- A field of a word. -/
theorem field_toNat (k len : Nat) : (w.extractLsb' k len).toNat = w.toNat / 2 ^ k % 2 ^ len := by
  rw [BitVec.extractLsb'_toNat, Nat.shiftRight_eq_div_pow]

/-- The field at the low end of a word. -/
theorem lowField_toNat (len : Nat) : (w.extractLsb' 0 len).toNat = w.toNat % 2 ^ len := by
  rw [field_toNat, Nat.pow_zero, Nat.div_one]

/-- The field at the high end of a word. -/
theorem topField_toNat {k len : Nat} (h : n = k + len) : (w.extractLsb' k len).toNat = w.toNat / 2 ^ k := by
  rw [field_toNat, Nat.mod_eq_of_lt (Nat.div_lt_of_lt_mul (by rw [← Nat.pow_add, ← h]; exact w.isLt))]

/-- One bit of a word. -/
theorem bit_toNat (k : Nat) : (w.getLsbD k).toNat = w.toNat / 2 ^ k % 2 := Nat.toNat_testBit _ _

/-- The bit at the high end of a word. -/
theorem topBit_toNat {k : Nat} (h : n = k + 1) : (w.getLsbD k).toNat = w.toNat / 2 ^ k := by
  rw [bit_toNat, ← topField_toNat w h, field_toNat, Nat.pow_one, Nat.mod_mod]

/-- A bit that is 0. -/
theorem getLsbD_eq_false_iff (k : Nat) : w.getLsbD k = false ↔ w.toNat / 2 ^ k % 2 = 0 := by
  rw [← bit_toNat, Bool.toNat_eq_zero]

end Fields

end Sys2Proof

/-! SUPPORT. The event decoder and encoder (R60): what each kind of event accepts, and that the two agree. -/

namespace Sys2Proof

open Machine (dataBits)

/-! ## Decoding what was encoded -/

theorem regwrForm_of_not_refined {off : BitVec 24} (h : refinedOffset off = false) (val : Word16) :
    regwrForm off val = .regwr off val := by
  rcases regwrForm_cases off val with ⟨rfl, -⟩ | ⟨rfl, -⟩ | ⟨rfl, -⟩ | ⟨rfl, -⟩ | ⟨rfl, -⟩ | ⟨-, hform⟩
  iterate 5 cases h
  exact hform

/-- An event that carries the low `n` bits of the data word is decoded from a value of `n` bits widened to that word. -/
theorem decode_headerWord_setWidth {n : Nat} (hn : n ≤ 32) {cls : BitVec 4} {size : BitVec 2} {addr : BitVec 24}
    {f : BitVec n → Instr} (h : ∀ w1 : Word32, decodeFields cls size false addr w1 = .ok (f (w1.extractLsb' 0 n)))
    (val : BitVec n) : decode (headerWord cls size false addr) (val.setWidth 32) = .ok (f val) := by
  rw [decode_headerWord, h, extractLsb'_setWidth val hn]

/-- A register write, at any offset. -/
theorem decode_regwr_header (off : BitVec 24) (val : Word16) :
    decode (headerWord 0x0#4 1#2 false off) (val.setWidth 32) = .ok (regwrForm off val) :=
  decode_headerWord_setWidth (by decide) (fun _ => rfl) val

/-- Settles O5, event by event: the fields of the header select the same row again, and the value comes back from the low bits of
the data word. Only a generic register write needs its well-formedness. -/
theorem decodeOfEncodeIsTheEvent : Obligations.DecodeOfEncodeIsTheEvent := by
  unfold Obligations.DecodeOfEncodeIsTheEvent
  intro i w0 w1 hwf henc
  cases i
  case regwr off val =>
    cases henc
    have hoff : refinedOffset off = false := by simpa [Instr.wf] using hwf
    rw [decode_regwr_header, regwrForm_of_not_refined hoff]
  case regwrRes val | regwrRammode val | regwrPri0F8 val | regwrPri0FA val | regwrPri0FC val =>
    cases henc
    exact decode_regwr_header _ val
  case vramwrB _ val | vramwrW _ val | cramwrB _ val | cramwrW _ val =>
    cases henc
    exact decode_headerWord_setWidth (by decide) (fun _ => rfl) val
  case regrd | vramwrL | vramrdB | vramrdW | vramrdL | cramwrL | cramrdB | cramrdW | cramrdL | hbin | hbout | vbin | vbout =>
    cases henc
    exact decode_headerWord _ _ _ _ _
  all_goals cases henc

/-! ## Encoding what was decoded -/

theorem regEvent_ok_iff {size : BitVec 2} {b24 : Bool} {i j : Instr} :
    regEvent size b24 j = .ok i ↔ size = 1#2 ∧ b24 = false ∧ j = i := by
  by_cases hsize : size = 1#2 <;> cases b24 <;> simp [regEvent, hsize]

theorem memEvent_ok_iff {size : BitVec 2} {b24 : Bool} {b w l i : Instr} :
    memEvent size b24 b w l = .ok i
      ↔ b24 = false ∧ (size = 0#2 ∧ b = i ∨ size = 1#2 ∧ w = i ∨ size = 2#2 ∧ l = i) := by
  have hsize : size = 0#2 ∨ size = 1#2 ∨ size = 2#2 ∨ size = 3#2 := by
    revert size; decide
  rcases hsize with rfl | rfl | rfl | rfl <;> cases b24 <;> simp [memEvent]

theorem edgeEvent_ok_iff {size : BitVec 2} {b24 : Bool} {addr : BitVec 24} {i j : Instr} :
    edgeEvent size b24 addr j = .ok i ↔ size = 0#2 ∧ b24 = false ∧ addr = 0#24 ∧ j = i := by
  by_cases hsize : size = 0#2 <;> by_cases haddr : addr = 0#24 <;> cases b24 <;> simp [edgeEvent, hsize, haddr]

theorem decode_ok_iff {w0 w1 : Word32} {i : Instr} :
    decode w0 w1 = .ok i ↔ w0.getLsbD 25 = false
      ∧ decodeFields (w0.extractLsb' 28 4) (w0.extractLsb' 26 2) (w0.getLsbD 24) (w0.extractLsb' 0 24) w1 = .ok i := by
  unfold decode
  split <;> simp_all

/-- `i` is a well-formed event, encoded with the header `w0` and with the bits of `w1` that it carries. -/
def EncodesBack (i : Instr) (w0 w1 : Word32) : Prop :=
  i.wf = true ∧ ∃ v, encode i = some (w0, v) ∧ v.toNat = w1.toNat % 2 ^ dataBits i

namespace EncodesBack

variable {i : Instr} {w0 w1 : Word32}

/-- An event that carries no data. -/
theorem of_no_data (hwf : i.wf = true) (hbits : dataBits i = 0) (henc : encode i = some (w0, 0#32)) : EncodesBack i w0 w1 :=
  ⟨hwf, 0#32, henc, by rw [hbits, Nat.pow_zero, Nat.mod_one]; rfl⟩

/-- An event that carries the low bits of the data word. -/
theorem of_low_bits (hwf : i.wf = true) {n : Nat} (hn : n ≤ 32) (hbits : dataBits i = n)
    (henc : encode i = some (w0, (w1.extractLsb' 0 n).setWidth 32)) : EncodesBack i w0 w1 := by
  refine ⟨hwf, _, henc, ?_⟩
  rw [hbits, BitVec.toNat_setWidth_of_le hn, lowField_toNat]

/-- An event that carries the whole data word. -/
theorem of_all_bits (hwf : i.wf = true) (hbits : dataBits i = 32) (henc : encode i = some (w0, w1)) : EncodesBack i w0 w1 :=
  ⟨hwf, w1, henc, by rw [hbits, Nat.mod_eq_of_lt w1.isLt]⟩

/-- A register write, in the form that its offset has. -/
theorem of_regwrForm (off : BitVec 24) (w1 : Word32) :
    EncodesBack (regwrForm off (w1.extractLsb' 0 16)) (headerWord 0x0#4 1#2 false off) w1 := by
  rcases regwrForm_cases off (w1.extractLsb' 0 16) with ⟨rfl, h⟩ | ⟨rfl, h⟩ | ⟨rfl, h⟩ | ⟨rfl, h⟩ | ⟨rfl, h⟩ | ⟨hoff, h⟩
  all_goals rw [h]
  case inr.inr.inr.inr.inr => exact of_low_bits (n := 16) (by rw [Instr.wf, hoff]; rfl) (by decide) rfl rfl
  all_goals exact of_low_bits (n := 16) rfl (by decide) rfl rfl

end EncodesBack

/-- R60, as a whole: the operations that the fields of a header give, and the header of each. -/
theorem decodeFields_ok_iff {cls : BitVec 4} {size : BitVec 2} {b24 : Bool} {addr : BitVec 24} {w1 : Word32} {i : Instr} :
    decodeFields cls size b24 addr w1 = .ok i ↔
      cls = 0x0#4 ∧ size = 1#2 ∧ b24 = false ∧ regwrForm addr (w1.extractLsb' 0 16) = i
        ∨ cls = 0x1#4 ∧ size = 1#2 ∧ b24 = false ∧ .regrd addr = i
        ∨ cls = 0x2#4 ∧ b24 = false ∧ (size = 0#2 ∧ .vramwrB addr (w1.extractLsb' 0 8) = i
          ∨ size = 1#2 ∧ .vramwrW addr (w1.extractLsb' 0 16) = i ∨ size = 2#2 ∧ .vramwrL addr w1 = i)
        ∨ cls = 0x3#4 ∧ b24 = false ∧ (size = 0#2 ∧ .vramrdB addr = i ∨ size = 1#2 ∧ .vramrdW addr = i
          ∨ size = 2#2 ∧ .vramrdL addr = i)
        ∨ cls = 0x4#4 ∧ b24 = false ∧ (size = 0#2 ∧ .cramwrB addr (w1.extractLsb' 0 8) = i
          ∨ size = 1#2 ∧ .cramwrW addr (w1.extractLsb' 0 16) = i ∨ size = 2#2 ∧ .cramwrL addr w1 = i)
        ∨ cls = 0x5#4 ∧ b24 = false ∧ (size = 0#2 ∧ .cramrdB addr = i ∨ size = 1#2 ∧ .cramrdW addr = i
          ∨ size = 2#2 ∧ .cramrdL addr = i)
        ∨ cls = 0x8#4 ∧ size = 0#2 ∧ b24 = false ∧ addr = 0#24 ∧ .hbin = i
        ∨ cls = 0x9#4 ∧ size = 0#2 ∧ b24 = false ∧ addr = 0#24 ∧ .hbout = i
        ∨ cls = 0xA#4 ∧ size = 0#2 ∧ addr = 0#24 ∧ .vbin b24 = i
        ∨ cls = 0xB#4 ∧ size = 0#2 ∧ b24 = false ∧ addr = 0#24 ∧ .vbout = i := by
  have hclass (c : BitVec 4) : cls = c ↔ cls.toNat = c.toNat := BitVec.toNat_inj.symm
  simp only [hclass]
  unfold decodeFields
  split
  case h_11 => simp_all
  all_goals simp_all [regEvent_ok_iff, memEvent_ok_iff, edgeEvent_ok_iff]

/-- What the decoder reads from the fields of a header encodes back to the header with those fields. -/
theorem encodesBack_of_decodeFields {cls : BitVec 4} {size : BitVec 2} {b24 : Bool} {addr : BitVec 24} {w1 : Word32} {i : Instr}
    (h : decodeFields cls size b24 addr w1 = .ok i) : EncodesBack i (headerWord cls size b24 addr) w1 := by
  rcases decodeFields_ok_iff.mp h with ⟨rfl, rfl, rfl, rfl⟩ | ⟨rfl, rfl, rfl, rfl⟩
    | ⟨rfl, rfl, ⟨rfl, rfl⟩ | ⟨rfl, rfl⟩ | ⟨rfl, rfl⟩⟩ | ⟨rfl, rfl, ⟨rfl, rfl⟩ | ⟨rfl, rfl⟩ | ⟨rfl, rfl⟩⟩
    | ⟨rfl, rfl, ⟨rfl, rfl⟩ | ⟨rfl, rfl⟩ | ⟨rfl, rfl⟩⟩ | ⟨rfl, rfl, ⟨rfl, rfl⟩ | ⟨rfl, rfl⟩ | ⟨rfl, rfl⟩⟩
    | ⟨rfl, rfl, rfl, rfl, rfl⟩ | ⟨rfl, rfl, rfl, rfl, rfl⟩ | ⟨rfl, rfl, rfl, rfl⟩ | ⟨rfl, rfl, rfl, rfl, rfl⟩
  · exact .of_regwrForm addr w1
  · exact .of_no_data rfl rfl rfl
  iterate 2
    · exact .of_low_bits (n := 8) rfl (by decide) rfl rfl
    · exact .of_low_bits (n := 16) rfl (by decide) rfl rfl
    · exact .of_all_bits rfl rfl rfl
    iterate 3 exact .of_no_data rfl rfl rfl
  iterate 4 exact .of_no_data rfl rfl rfl

/-- Settles O6: the header is put together from the fields that the decoder read. -/
theorem encodeOfDecodeIsTheHeader : Obligations.EncodeOfDecodeIsTheHeader := by
  unfold Obligations.EncodeOfDecodeIsTheHeader
  intro w0 w1 i h
  obtain ⟨hbit, hfields⟩ := decode_ok_iff.mp h
  rw [← headerWord_fields w0 hbit]
  exact encodesBack_of_decodeFields hfields

/-- Settles O7: with the fields of the header as numbers, both sides are compared class by class. -/
theorem decoderAcceptsExactlyTheEventHeaders : Obligations.DecoderAcceptsExactlyTheEventHeaders := by
  unfold Obligations.DecoderAcceptsExactlyTheEventHeaders
  intro w0 w1 cls size bit25 bit24 addr
  have hcls : (w0.extractLsb' 28 4).toNat = cls := topField_toNat w0 rfl
  have hsize : (w0.extractLsb' 26 2).toNat = size := field_toNat w0 26 2
  have haddr : (w0.extractLsb' 0 24).toNat = addr := lowField_toNat w0 24
  have hbit25 : w0.getLsbD 25 = false ↔ bit25 = 0 := getLsbD_eq_false_iff w0 25
  have hbit24 : w0.getLsbD 24 = false ↔ bit24 = 0 := getLsbD_eq_false_iff w0 24
  have hlt : cls < 16 := Nat.div_lt_of_lt_mul w0.isLt
  clear_value cls size bit25 bit24 addr
  have hle : (size = 0 ∨ size = 1 ∨ size = 2) ↔ size ≤ 2 := by omega
  simp only [decode_ok_iff, decodeFields_ok_iff, exists_or, exists_and_left, exists_eq', and_true, ← BitVec.toNat_inj,
    BitVec.toNat_ofNat, Nat.reducePow, Nat.reduceMod, hcls, hsize, haddr, hbit25, hbit24, hle]
  refine and_congr_right fun _ => ?_
  interval_cases cls <;> simp [and_comm]

/-- Settles O8: the decoder, run on each pair of words. -/
theorem eventWordsDecode : Obligations.EventWordsDecode := by
  unfold Obligations.EventWordsDecode
  decide

end Sys2Proof

/-! SUPPORT. The data formats (R61 to R71): splitting a datum into its fields and packing the fields. A field of a concatenation is
found by going past the parts below it; neighbouring fields of a word, concatenated, are one field again, masked where a part was
cleared. -/

namespace Sys2Proof

open BitVec (extractLsb'_append_eq_left extractLsb'_append_eq_right extractLsb'_eq_self
  extractLsb'_append_extractLsb'_eq_extractLsb')

section Concatenation

variable {m n : Nat}

/-- A field of the high part of a concatenation. -/
theorem field_of_high {hi : BitVec m} {lo : BitVec n} {k len : Nat} {v : BitVec len} (h : hi.extractLsb' k len = v) :
    (hi ++ lo).extractLsb' (k + n) len = v := by
  rw [BitVec.extractLsb'_append_eq_of_le (Nat.le_add_left n k), Nat.add_sub_cancel, h]

/-- A field of one bit is that bit. -/
theorem ofBool_getLsbD (w : BitVec n) (k : Nat) : BitVec.ofBool (w.getLsbD k) = w.extractLsb' k 1 := by
  rw [BitVec.getLsbD_eq_extractLsb']
  exact (by decide : ∀ b : BitVec 1, BitVec.ofBool (b == 1#1) = b) _

theorem bit_of_field {w : BitVec n} {k : Nat} {b : Bool} (h : w.extractLsb' k 1 = BitVec.ofBool b) : w.getLsbD k = b := by
  rw [BitVec.getLsbD_eq_extractLsb', h]
  cases b <;> rfl

variable {w : BitVec n} {k k' len len' : Nat}

/-- A field below a masked field is kept. -/
theorem append_field_masked (h : k' = k + len) (mask : BitVec len') :
    (w.extractLsb' k' len' &&& mask) ++ w.extractLsb' k len = w.extractLsb' k (len' + len) &&& (mask ++ BitVec.allOnes len) := by
  rw [← extractLsb'_append_extractLsb'_eq_extractLsb' h, BitVec.and_append, BitVec.and_allOnes]

/-- Zeros below a masked field clear the field that stood there. -/
theorem append_zero_masked (h : k' = k + len) (mask : BitVec len') :
    (w.extractLsb' k' len' &&& mask) ++ 0#len = w.extractLsb' k (len' + len) &&& (mask ++ 0#len) := by
  rw [← extractLsb'_append_extractLsb'_eq_extractLsb' h, BitVec.and_append, BitVec.and_zero]

end Concatenation

/-! ## A packed record splits into itself -/

theorem pn1A0OfWord_wordOfPn1A0 (f : FmtPn1A0) : pn1A0OfWord (wordOfPn1A0 f) = f := by
  obtain ⟨p, v, h, c⟩ := f
  rw [pn1A0OfWord, FmtPn1A0.mk.injEq]
  refine ⟨?_, ?_, ?_, ?_⟩
  · exact field_of_high (field_of_high extractLsb'_append_eq_left)
  · exact bit_of_field (field_of_high (field_of_high extractLsb'_append_eq_right))
  · exact bit_of_field (field_of_high extractLsb'_append_eq_right)
  · exact extractLsb'_append_eq_right

theorem pn1A1OfWord_wordOfPn1A1 (f : FmtPn1A1) : pn1A1OfWord (wordOfPn1A1 f) = f := by
  obtain ⟨p, c⟩ := f
  rw [pn1A1OfWord, FmtPn1A1.mk.injEq]
  exact ⟨extractLsb'_append_eq_left, extractLsb'_append_eq_right⟩

theorem pn2OfWord_wordOfPn2 (f : FmtPn2) : pn2OfWord (wordOfPn2 f) = f := by
  obtain ⟨v, h, s, p, c⟩ := f
  rw [pn2OfWord, FmtPn2.mk.injEq]
  refine ⟨?_, ?_, ?_, ?_, ?_⟩
  · exact bit_of_field (field_of_high (field_of_high (field_of_high (field_of_high (field_of_high extractLsb'_append_eq_left)))))
  · exact bit_of_field
      (field_of_high (field_of_high (field_of_high (field_of_high (field_of_high extractLsb'_append_eq_right)))))
  · exact field_of_high (field_of_high (field_of_high (field_of_high extractLsb'_append_eq_right)))
  · exact field_of_high (field_of_high extractLsb'_append_eq_right)
  · exact extractLsb'_append_eq_right

theorem suppOfBits_bitsOfSupp (f : FmtSupp) : suppOfBits (bitsOfSupp f) = f := by
  obtain ⟨s, p, c⟩ := f
  rw [suppOfBits, FmtSupp.mk.injEq]
  exact ⟨field_of_high extractLsb'_append_eq_left, field_of_high extractLsb'_append_eq_right, extractLsb'_append_eq_right⟩

theorem pixD0OfWord_wordOfPixD0 (f : FmtPixD0) : pixD0OfWord (wordOfPixD0 f) = f := by
  obtain ⟨a, b, c, d⟩ := f
  rw [pixD0OfWord, FmtPixD0.mk.injEq]
  refine ⟨?_, ?_, ?_, ?_⟩
  · exact field_of_high (field_of_high extractLsb'_append_eq_left)
  · exact field_of_high (field_of_high extractLsb'_append_eq_right)
  · exact field_of_high extractLsb'_append_eq_right
  · exact extractLsb'_append_eq_right

theorem pixD1OfWord_wordOfPixD1 (f : FmtPixD1) : pixD1OfWord (wordOfPixD1 f) = f := by
  obtain ⟨a, b⟩ := f
  rw [pixD1OfWord, FmtPixD1.mk.injEq]
  exact ⟨extractLsb'_append_eq_left, extractLsb'_append_eq_right⟩

theorem pixD2OfWord_wordOfPixD2 (f : FmtPixD2) : pixD2OfWord (wordOfPixD2 f) = f := by
  obtain ⟨i⟩ := f
  rw [pixD2OfWord, FmtPixD2.mk.injEq]
  exact extractLsb'_append_eq_right

theorem pixD3OfWord_wordOfPixD3 (f : FmtPixD3) : pixD3OfWord (wordOfPixD3 f) = f := by
  obtain ⟨o, b, g, r⟩ := f
  rw [pixD3OfWord, FmtPixD3.mk.injEq]
  refine ⟨?_, ?_, ?_, ?_⟩
  · exact bit_of_field (field_of_high (field_of_high extractLsb'_append_eq_left))
  · exact field_of_high (field_of_high extractLsb'_append_eq_right)
  · exact field_of_high extractLsb'_append_eq_right
  · exact extractLsb'_append_eq_right

/-- The record holds bit 15 of its first word twice. -/
theorem pixD4OfWord_wordOfPixD4 {f : FmtPixD4} (hf : f.o = f.w1.getLsbD 15) : pixD4OfWord (wordOfPixD4 f) = f := by
  obtain ⟨o, w1, w2⟩ := f
  have hflag : w1.extractLsb' 15 1 = BitVec.ofBool o :=
    (ofBool_getLsbD w1 15).symm.trans (congrArg BitVec.ofBool hf.symm)
  rw [pixD4OfWord, FmtPixD4.mk.injEq]
  exact ⟨bit_of_field (field_of_high hflag), extractLsb'_append_eq_left, extractLsb'_append_eq_right⟩

theorem color1OfWord_wordOfColor1 (f : FmtColor1) : color1OfWord (wordOfColor1 f) = f := by
  obtain ⟨b, g, r⟩ := f
  rw [color1OfWord, FmtColor1.mk.injEq]
  refine ⟨?_, ?_, ?_⟩
  · exact field_of_high (field_of_high extractLsb'_append_eq_right)
  · exact field_of_high extractLsb'_append_eq_right
  · exact extractLsb'_append_eq_right

theorem colofsOfWord_wordOfColofs (f : FmtColofs) : colofsOfWord (wordOfColofs f) = f := by
  obtain ⟨value⟩ := f
  rw [colofsOfWord, FmtColofs.mk.injEq]
  exact extractLsb'_append_eq_right

/-! ## A split datum packs into the datum, its ignored bits cleared -/

theorem wordOfPn1A0_pn1A0OfWord (w : Word16) : wordOfPn1A0 (pn1A0OfWord w) = w := by
  simp only [wordOfPn1A0, pn1A0OfWord, ofBool_getLsbD]
  repeat rw [extractLsb'_append_extractLsb'_eq_extractLsb' (by decide)]
  exact extractLsb'_eq_self

theorem wordOfPn1A1_pn1A1OfWord (w : Word16) : wordOfPn1A1 (pn1A1OfWord w) = w :=
  BitVec.extractLsb'_append_extractLsb' (w := 4) (len := 12)

theorem wordOfPn2_pn2OfWord (w : Word32) : wordOfPn2 (pn2OfWord w) = w &&& 0xF07F7FFF#32 := by
  simp only [wordOfPn2, pn2OfWord, ofBool_getLsbD]
  repeat rw [extractLsb'_append_extractLsb'_eq_extractLsb' (by decide)]
  rw [← BitVec.and_allOnes (x := w.extractLsb' 28 _), append_zero_masked (k := 23) (by decide), append_field_masked (by decide),
    append_zero_masked (k := 15) (by decide), append_field_masked (by decide), extractLsb'_eq_self]
  rfl

theorem bitsOfSupp_suppOfBits (w : BitVec 10) : bitsOfSupp (suppOfBits w) = w := by
  simp only [bitsOfSupp, suppOfBits]
  repeat rw [extractLsb'_append_extractLsb'_eq_extractLsb' (by decide)]
  exact extractLsb'_eq_self

theorem wordOfPixD0_pixD0OfWord (w : Word16) : wordOfPixD0 (pixD0OfWord w) = w := by
  simp only [wordOfPixD0, pixD0OfWord]
  repeat rw [extractLsb'_append_extractLsb'_eq_extractLsb' (by decide)]
  exact extractLsb'_eq_self

theorem wordOfPixD1_pixD1OfWord (w : Word16) : wordOfPixD1 (pixD1OfWord w) = w :=
  BitVec.extractLsb'_append_extractLsb' (w := 8) (len := 8)

theorem wordOfPixD2_pixD2OfWord (w : Word16) : wordOfPixD2 (pixD2OfWord w) = w &&& 0x07FF#16 := by
  simp only [wordOfPixD2, pixD2OfWord]
  rw [← BitVec.and_zero (x := w.extractLsb' 11 5), append_field_masked (by decide), extractLsb'_eq_self]
  rfl

theorem wordOfPixD3_pixD3OfWord (w : Word16) : wordOfPixD3 (pixD3OfWord w) = w := by
  simp only [wordOfPixD3, pixD3OfWord, ofBool_getLsbD]
  repeat rw [extractLsb'_append_extractLsb'_eq_extractLsb' (by decide)]
  exact extractLsb'_eq_self

theorem wordOfPixD4_pixD4OfWord (w : Word32) : wordOfPixD4 (pixD4OfWord w) = w :=
  BitVec.extractLsb'_append_extractLsb' (w := 16) (len := 16)

theorem wordOfColor1_color1OfWord (w : Word16) : wordOfColor1 (color1OfWord w) = w &&& 0x7FFF#16 := by
  simp only [wordOfColor1, color1OfWord]
  rw [← BitVec.and_zero (x := w.extractLsb' 15 1), append_field_masked (by decide), append_field_masked (by decide),
    append_field_masked (by decide), extractLsb'_eq_self]
  rfl

theorem wordOfColofs_colofsOfWord (w : Word16) : wordOfColofs (colofsOfWord w) = w &&& 0x01FF#16 := by
  simp only [wordOfColofs, colofsOfWord]
  rw [← BitVec.and_zero (x := w.extractLsb' 9 7), append_field_masked (by decide), extractLsb'_eq_self]
  rfl

/-- Settles O9, format by format. -/
theorem formatsSplitAndPackAgree : Obligations.FormatsSplitAndPackAgree :=
  ⟨pn1A0OfWord_wordOfPn1A0, wordOfPn1A0_pn1A0OfWord,
    pn1A1OfWord_wordOfPn1A1, wordOfPn1A1_pn1A1OfWord,
    pn2OfWord_wordOfPn2, wordOfPn2_pn2OfWord,
    suppOfBits_bitsOfSupp, bitsOfSupp_suppOfBits,
    pixD0OfWord_wordOfPixD0, wordOfPixD0_pixD0OfWord,
    pixD1OfWord_wordOfPixD1, wordOfPixD1_pixD1OfWord,
    pixD2OfWord_wordOfPixD2, wordOfPixD2_pixD2OfWord,
    pixD3OfWord_wordOfPixD3, wordOfPixD3_pixD3OfWord,
    fun _ => pixD4OfWord_wordOfPixD4, wordOfPixD4_pixD4OfWord,
    color1OfWord_wordOfColor1, wordOfColor1_color1OfWord,
    colofsOfWord_wordOfColofs, wordOfColofs_colofsOfWord⟩

/-! ## What the operations of the data formats answer -/

/-- A 9-bit field, as the two's-complement number of R61. -/
theorem lowField_toInt (w : Word16) : (w.extractLsb' 0 9).toInt = Claims.signed 9 w.toNat := by
  rw [BitVec.toInt_eq_toNat_cond, lowField_toNat, Claims.signed]
  split <;> split <;> omega

/-- Settles O10: each field of the answer, as a number, is the field of the datum that its pattern string names. -/
theorem formatOperationsAnswerTheirFields : Obligations.FormatOperationsAnswerTheirFields := by
  unfold Obligations.FormatOperationsAnswerTheirFields
  intro s w l d
  refine ⟨⟨_, rfl, ?pn1A0⟩, ⟨_, rfl, ?pn1A1⟩, ⟨_, rfl, ?pn2⟩, ⟨_, rfl, ?supp⟩, ⟨_, rfl, ?pixD0⟩, ⟨_, rfl, ?pixD1⟩,
    ⟨_, rfl, ?pixD2⟩, ⟨_, rfl, ?pixD3⟩, ⟨_, rfl, ?pixD4⟩, ⟨_, rfl, ?color1⟩, ?colofs⟩
  case pn1A0 => exact ⟨topField_toNat w rfl, bit_toNat w 11, bit_toNat w 10, lowField_toNat w 10⟩
  case pn1A1 => exact ⟨topField_toNat w rfl, lowField_toNat w 12⟩
  case pn2 => exact ⟨topBit_toNat l rfl, bit_toNat l 30, field_toNat l 28 2, field_toNat l 16 7, lowField_toNat l 15⟩
  case supp => exact ⟨topField_toNat d rfl, field_toNat d 5 3, lowField_toNat d 5⟩
  case pixD0 => exact ⟨topField_toNat w rfl, field_toNat w 8 4, field_toNat w 4 4, lowField_toNat w 4⟩
  case pixD1 => exact ⟨topField_toNat w rfl, lowField_toNat w 8⟩
  case pixD2 => exact lowField_toNat w 11
  case pixD3 => exact ⟨topBit_toNat w rfl, field_toNat w 10 5, field_toNat w 5 5, lowField_toNat w 5⟩
  case pixD4 => exact ⟨topBit_toNat l rfl, topField_toNat l rfl, lowField_toNat l 16⟩
  case color1 => exact ⟨field_toNat w 10 5, field_toNat w 5 5, lowField_toNat w 5⟩
  case colofs => rw [Claims.Answers, ← lowField_toInt]; rfl

end Sys2Proof

/-! SUPPORT. Register writes (R80, R82, R83): the one state that a write in contract ends in, in every form of the operation, what
it leaves as it was, and that such states do not depend on repeating or reordering the writes. -/

namespace Sys2Proof.Machine

open Sys2Proof.Claims

/-! ## The register bank after one and after two stores -/

/-- Every register after a store, by its even offset. -/
theorem regGet_regPut (reg : Bank) {off o : Nat} (v : Word16) (hoff : off % 2 = 0) (ho : o % 2 = 0) (hle : o ≤ 0x1FE) :
    regGet (regPut reg off v) o = if o = off then v else regGet reg o := by
  split
  · next h => rw [h, regGet_regPut_same _ _ _ (h ▸ hle)]
  · exact regGet_regPut_other _ _ (by omega)

/-- Storing the same value again changes nothing. -/
theorem regPut_regPut_same (reg : Bank) (off : Nat) (v : Word16) : regPut (regPut reg off v) off v = regPut reg off v :=
  Vector.setIfInBounds_setIfInBounds v

/-- Stores to two registers may change places. -/
theorem regPut_comm (reg : Bank) {o p : Nat} (v w : Word16) (h : o / 2 ≠ p / 2) :
    regPut (regPut reg o v) p w = regPut (regPut reg p w) o v :=
  Vector.setIfInBound_comm v w h

/-! ## The trigger of the resolution register -/

section Trigger

variable {s : State}

/-- R83: a surface of the decoded size stays. -/
theorem afterResolutionWrite_of_eq (h : resolution s.config s.reg = (s.surface.w, s.surface.h)) : afterResolutionWrite s = s := by
  rw [afterResolutionWrite, h]
  exact if_pos ⟨rfl, rfl⟩

/-- R83: any other surface takes the decoded size. -/
theorem afterResolutionWrite_of_ne (h : resolution s.config s.reg ≠ (s.surface.w, s.surface.h)) :
    afterResolutionWrite s = s.resize (resolution s.config s.reg).1 (resolution s.config s.reg).2 :=
  if_neg fun ⟨hw, hh⟩ => h (Prod.ext hw hh)

/-- After the trigger the surface has the decoded size, so the trigger does nothing more. -/
theorem afterResolutionWrite_idem (s : State) : afterResolutionWrite (afterResolutionWrite s) = afterResolutionWrite s := by
  by_cases h : resolution s.config s.reg = (s.surface.w, s.surface.h)
  · rw [afterResolutionWrite_of_eq h, afterResolutionWrite_of_eq h]
  · rw [afterResolutionWrite_of_ne h]
    exact afterResolutionWrite_of_eq rfl

/-- The trigger sees of the registers only the decoded resolution. -/
theorem afterResolutionWrite_setBank {reg : Bank} (h : resolution s.config reg = resolution s.config s.reg) :
    afterResolutionWrite (s.setBank reg) = (afterResolutionWrite s).setBank reg := by
  by_cases hsize : resolution s.config s.reg = (s.surface.w, s.surface.h)
  · rw [afterResolutionWrite_of_eq hsize]
    exact afterResolutionWrite_of_eq (s := s.setBank reg) (h.trans hsize)
  · rw [afterResolutionWrite_of_ne hsize, afterResolutionWrite_of_ne (s := s.setBank reg) (h ▸ hsize), State.setBank_config,
      State.setBank_reg, h]
    rfl

theorem afterRegWrite_idem (off : Nat) (s : State) : afterRegWrite off (afterRegWrite off s) = afterRegWrite off s := by
  by_cases h0 : off = 0
  · subst h0
    exact afterResolutionWrite_idem s
  · rw [afterRegWrite_other _ h0, afterRegWrite_other _ h0]

theorem afterRegWrite_setBank (off : Nat) {reg : Bank} (h : resolution s.config reg = resolution s.config s.reg) :
    afterRegWrite off (s.setBank reg) = (afterRegWrite off s).setBank reg := by
  by_cases h0 : off = 0
  · subst h0
    exact afterResolutionWrite_setBank h
  · rw [afterRegWrite_other _ h0, afterRegWrite_other _ h0]

end Trigger

/-! ## The state after a register write -/

/-- The state in which a register write in contract ends: the store, then the trigger. -/
def State.writeReg (s : State) (off : Nat) (val : Word16) : State := afterRegWrite off (s.setBank (regPut s.reg off val))

section WriteReg

variable {s : State} {off : Nat} {val : Word16}

/-- A register write in contract ends in that state. -/
theorem hostRegWrite_writeReg (s : State) (val : Word16) (heven : off % 2 = 0) (hle : off ≤ 0x1FE) :
    hostRegWrite off val s = .next (s.writeReg off val) :=
  hostRegWrite_ok val s ((offsetOk_iff off).mpr ⟨heven, hle⟩)

@[simp] theorem State.writeReg_reg (s : State) (off : Nat) (val : Word16) :
    (s.writeReg off val).reg = regPut s.reg off val :=
  (afterRegWrite_frame off _).1

@[simp] theorem State.writeReg_config (s : State) (off : Nat) (val : Word16) : (s.writeReg off val).config = s.config := by
  obtain ⟨-, -, -, -, -, -, -, h⟩ := afterRegWrite_frame off (s.setBank (regPut s.reg off val))
  exact h

/-- R80: the registers and the surface are all that a register write may change. -/
theorem State.writeReg_frame (s : State) (off : Nat) (val : Word16) : s.writeReg off val
    = { s with reg := (s.writeReg off val).reg, surface := (s.writeReg off val).surface,
               unspecSeq := (s.writeReg off val).unspecSeq } := by
  obtain ⟨-, hvram, hcram, hinbox, hsprite, hanswers, houtputs, hconfig⟩ :=
    afterRegWrite_frame off (s.setBank (regPut s.reg off val))
  rw [State.mk.injEq]
  exact ⟨rfl, hvram, hcram, rfl, hinbox, hsprite, hanswers, houtputs, rfl, hconfig⟩

/-- R82: away from 0x000 a register write is the store alone. -/
theorem State.writeReg_other (s : State) (val : Word16) (h0 : off ≠ 0) :
    s.writeReg off val = s.setBank (regPut s.reg off val) :=
  afterRegWrite_other _ h0

/-- R82: the same write again finds the value stored and the surface of the decoded size. -/
theorem State.writeReg_idem (s : State) (off : Nat) (val : Word16) :
    (s.writeReg off val).writeReg off val = s.writeReg off val := by
  have hstore : (s.writeReg off val).setBank (regPut (s.writeReg off val).reg off val) = s.writeReg off val := by
    rw [State.writeReg_reg, regPut_regPut_same, ← State.writeReg_reg]
    rfl
  rw [State.writeReg, hstore, State.writeReg, afterRegWrite_idem]

/-- R253: a write away from 0x000 may come before or after any write of another register, because it does not enter the decoded
resolution. -/
theorem State.writeReg_comm_other (hc : s.config.wf = true) {o p : Nat} (v w : Word16) (hne : o / 2 ≠ p / 2) (hp : p / 2 ≠ 0) :
    (s.writeReg o v).writeReg p w = (s.writeReg p w).writeReg o v := by
  have hp0 : p ≠ 0 := fun h => hp (by rw [h])
  have hres := resolution_regPut_other hc (regPut s.reg o v) w hp
  calc (s.writeReg o v).writeReg p w
      = (afterRegWrite o (s.setBank (regPut s.reg o v))).setBank (regPut (regPut s.reg o v) p w) := by
        rw [State.writeReg_other _ _ hp0, State.writeReg_reg, State.writeReg]
    _ = afterRegWrite o (s.setBank (regPut (regPut s.reg p w) o v)) := by
        rw [← afterRegWrite_setBank o hres, regPut_comm _ _ _ hne]
        rfl
    _ = (s.writeReg p w).writeReg o v := by rw [State.writeReg_other s _ hp0]; rfl

/-- R253: writes of two registers may change places. -/
theorem State.writeReg_comm (hc : s.config.wf = true) {o p : Nat} (v w : Word16) (hne : o / 2 ≠ p / 2) :
    (s.writeReg o v).writeReg p w = (s.writeReg p w).writeReg o v := by
  by_cases hp : p / 2 = 0
  · exact (writeReg_comm_other hc w v hne.symm (hp ▸ hne)).symm
  · exact writeReg_comm_other hc v w hne hp

end WriteReg

/-! ## The operations on registers -/

theorem offsetOk_eq_false {off : Nat} (h : ¬(off % 2 = 0 ∧ off ≤ 0x1FE)) : offsetOk off = false :=
  Bool.eq_false_iff.mpr (mt (offsetOk_iff off).mp h)

section Operations

variable (s : State) {off : BitVec 24} (val : Word16)

/-- Every form of a register write is the one host transaction at its offset (R60, R80). -/
theorem exec_regwrForm (off : BitVec 24) : exec (regwrForm off val) s = hostRegWrite off.toNat val s := by
  rcases regwrForm_cases off val with ⟨rfl, h⟩ | ⟨rfl, h⟩ | ⟨rfl, h⟩ | ⟨rfl, h⟩ | ⟨rfl, h⟩ | ⟨-, h⟩
  all_goals rw [h]; rfl

theorem exec_regwrForm_ok (heven : off.toNat % 2 = 0) (hle : off.toNat ≤ 0x1FE) :
    exec (regwrForm off val) s = .next (s.writeReg off.toNat val) := by
  rw [exec_regwrForm, hostRegWrite_writeReg s val heven hle]

/-- REGRD in contract (R81). -/
theorem answers_regrd (heven : off.toNat % 2 = 0) (hle : off.toNat ≤ 0x1FE) :
    Answers s (.regrd off) (.word (regGet s.reg off.toNat)) :=
  hostRegRead_next.mpr ⟨(offsetOk_iff _).mpr ⟨heven, hle⟩, rfl⟩

/-- REGRD out of contract (R222, code 1). -/
theorem exec_regrd_bad (h : ¬(off.toNat % 2 = 0 ∧ off.toNat ≤ 0x1FE)) :
    exec (.regrd off) s = .fault (.badRegOffset off.toNat) := by
  rw [exec, execRegrd, hostRegRead, offsetOk_eq_false h]
  rfl

end Operations

/-- Settles O11: every form is the host transaction, and that stores one register. -/
theorem registerWriteStoresOneRegister : Obligations.RegisterWriteStoresOneRegister := by
  unfold Obligations.RegisterWriteStoresOneRegister
  intro s off val i hi
  have hexec : exec i s = hostRegWrite off.toNat val s := by
    rcases hi with rfl | rfl
    · exact exec_regwrForm s val off
    · rfl
  rw [hexec]
  refine ⟨fun ⟨heven, hle⟩ => ⟨s.writeReg off.toNat val, hostRegWrite_writeReg s val heven hle, ?stored, ?others,
    s.writeReg_frame off.toNat val, fun hoff => ?noResize⟩, fun h => hostRegWrite_bad val s (offsetOk_eq_false h)⟩
  case stored => rw [State.writeReg_reg, regGet_regPut_same _ _ _ hle]
  case others =>
    intro o ho _ hne
    rw [State.writeReg_reg, regGet_regPut_other _ _ (by omega)]
  case noResize =>
    have h0 : off.toNat ≠ 0 := fun h => hoff (BitVec.eq_of_toNat_eq h)
    rw [State.writeReg_other _ _ h0]
    exact ⟨rfl, rfl⟩

/-- Settles O12: REGRD answers the register as the writes left it. -/
theorem registerReadAnswersTheLatestWrite : Obligations.RegisterReadAnswersTheLatestWrite := by
  unfold Obligations.RegisterReadAnswersTheLatestWrite
  refine ⟨fun s off val heven hle => ⟨_, exec_regwrForm_ok s val heven hle, fun o ho hole => ?_⟩,
    fun s _ => answers_regrd s, fun s _ => exec_regrd_bad s⟩
  have h := answers_regrd (s.writeReg off.toNat val) ho hole
  simpa only [State.writeReg_reg, regGet_regPut _ _ heven ho hole, BitVec.toNat_inj] using h

/-- Settles O13: the states after the writes are equal. -/
theorem registerWritesAreIdempotentAndCommute : Obligations.RegisterWritesAreIdempotentAndCommute := by
  unfold Obligations.RegisterWritesAreIdempotentAndCommute
  refine ⟨fun s off val heven hle => ⟨_, exec_regwrForm_ok s val heven hle, ?twice⟩,
    fun s o p v w hc hne ho hole hp hple => ⟨(s.writeReg o.toNat v).writeReg p.toNat w, ?inOrder, ?swapped⟩⟩
  case twice => rw [exec_regwrForm_ok _ val heven hle, State.writeReg_idem]
  case inOrder => simp only [execAll, exec_regwrForm_ok _ _ ho hole, exec_regwrForm_ok _ _ hp hple]
  case swapped =>
    have hdiff : o.toNat ≠ p.toNat := fun h => hne (BitVec.eq_of_toNat_eq h)
    simp only [execAll, exec_regwrForm_ok _ _ ho hole, exec_regwrForm_ok _ _ hp hple]
    rw [State.writeReg_comm hc v w (by omega)]

/-! ## The fields of a register under the default register map -/

/-- A field as the bits of its register. -/
theorem fld_eq_regBits (reg : Bank) (f : Field) : fld reg f = regBits reg f.off f.lsb f.width := by
  rw [fld, regBits, Nat.shiftRight_eq_div_pow]

/-- A field of the register just stored. -/
theorem regBits_regPut_same (reg : Bank) {off : Nat} (v : Word16) (lsb width : Nat) (h : off ≤ 0x1FE) :
    regBits (regPut reg off v) off lsb width = v.toNat / 2 ^ lsb % 2 ^ width := by
  rw [regBits, regGet_regPut_same _ _ _ h]

/-- Bits read from a register are in the range of their width. -/
theorem regBits_lt (reg : Bank) (off lsb width : Nat) : regBits reg off lsb width < 2 ^ width :=
  Nat.mod_lt _ (Nat.two_pow_pos width)

/-- The default P_INTERLACE doubles at LSMD = 3 alone (R84). -/
theorem interlace_default {n : Nat} (h : n < 4) : Config.default.interlace.getD n false = true ↔ n = 3 := by
  revert n
  decide

/-- R84 with the default tables: the resolution that a value of the resolution register selects. -/
theorem resolution_default_regPut (reg : Bank) (v : Word16) :
    let h := [224, 240, 256, 256].getD (v.toNat / 16 % 4) 0
    resolution Config.default (regPut reg 0 v)
      = ([320, 352, 640, 704].getD (v.toNat % 4) 0, if v.toNat / 64 % 4 = 3 then 2 * h else h) := by
  have hw : fld (regPut reg 0 v) Config.default.regmap.hreso % 4 = v.toNat % 4 := by
    rw [fld_eq_regBits]
    refine (congrArg (· % 4) (regBits_regPut_same reg v 0 3 (by decide))).trans ?_
    omega
  have hv : fld (regPut reg 0 v) Config.default.regmap.vreso = v.toNat / 16 % 4 :=
    (fld_eq_regBits _ _).trans (regBits_regPut_same reg v 4 2 (by decide))
  have hi : fld (regPut reg 0 v) Config.default.regmap.lsmd = v.toNat / 64 % 4 :=
    (fld_eq_regBits _ _).trans (regBits_regPut_same reg v 6 2 (by decide))
  simp only [resolution, hw, hv, hi, interlace_default (Nat.mod_lt _ (Nat.succ_pos 3))]
  rfl

/-- Settles O14: the two cases of the trigger, at the resolution that the value selects. -/
theorem resolutionWriteResizesTheSurface : Obligations.ResolutionWriteResizesTheSurface := by
  unfold Obligations.ResolutionWriteResizesTheSurface
  intro s val hc w h0 h
  have hres : resolution s.config (regPut s.reg 0 val) = (w, h) := by rw [hc]; exact resolution_default_regPut s.reg val
  refine ⟨s.writeReg 0 val, exec_regwrForm_ok s (off := 0) val rfl (by decide), ?stored, ?others, ?decoded, fun heq => ?kept,
    fun hne => ?resized⟩
  case stored => rw [State.writeReg_reg, regGet_regPut_same _ _ _ (by decide)]
  case others =>
    intro o _ _ _
    rw [State.writeReg_reg, regGet_regPut_other _ _ (by omega)]
  case decoded => rw [State.writeReg_config, State.writeReg_reg, hres]
  case kept =>
    rw [State.writeReg_reg]
    exact afterResolutionWrite_of_eq (s := s.setBank (regPut s.reg 0 val)) (hres.trans heq)
  case resized =>
    rw [State.writeReg_reg]
    refine (afterResolutionWrite_of_ne (s := s.setBank (regPut s.reg 0 val)) (hres ▸ hne)).trans ?_
    rw [State.setBank_config, State.setBank_reg, hres]
    rfl

/-- A register write away from 0x000, in any form, leaves the state with one register stored (R82, R85, R86). -/
theorem exists_stored {s : State} {i : Instr} {off : Nat} {val : Word16} (hexec : exec i s = hostRegWrite off val s)
    (hok : offsetOk off = true) (h0 : off ≠ 0) {P : State → Prop} (hP : P (s.setBank (regPut s.reg off val))) :
    ∃ t, exec i s = .next t ∧ t = { s with reg := t.reg }
      ∧ (∀ o, o % 2 = 0 → o ≤ 0x1FE → o ≠ off → regGet t.reg o = regGet s.reg o) ∧ regGet t.reg off = val ∧ P t := by
  obtain ⟨heven, hle⟩ := (offsetOk_iff off).mp hok
  refine ⟨s.setBank (regPut s.reg off val), ?_, rfl, fun o ho _ hne => ?_, regGet_regPut_same _ _ _ hle, hP⟩
  · rw [hexec, hostRegWrite_writeReg s val heven hle, State.writeReg_other s val h0]
  · exact regGet_regPut_other _ _ (by omega)

/-- R91 with the default P_CRAM_MODE: the mode that CRMD selects. -/
theorem cramModeOf_default (reg : Bank) : cramModeOf Config.default reg
    = [CramMode.legacy, .wide, .extended, .extended].getD (regBits reg 0x00E 12 2) .legacy := by
  have hmode : ∀ n < 4, Config.default.cramModes.getD n .extended
      = [CramMode.legacy, .wide, .extended, .extended].getD n .legacy := by decide
  rw [cramModeOf, fld_eq_regBits]
  exact hmode _ (regBits_lt reg 0x00E 12 2)

/-- CRAM.MODE under the default configuration (R91). -/
theorem answers_cramMode {s : State} (hc : s.config = Config.default) : Answers s .cramMode
    (.mode ([CramMode.legacy, .wide, .extended, .extended].getD (regBits s.reg 0x00E 12 2) .legacy)) := by
  rw [← cramModeOf_default, ← hc]
  rfl

/-- Settles O15: CRAM.MODE reads the register that the write stores. -/
theorem ramModeWriteSelectsTheMode : Obligations.RamModeWriteSelectsTheMode := by
  unfold Obligations.RamModeWriteSelectsTheMode
  intro s val hc
  refine ⟨answers_cramMode hc, exists_stored rfl (by decide) (by decide) ?_⟩
  have h := answers_cramMode (s := s.setBank (regPut s.reg 0x00E val)) hc
  rwa [State.setBank_reg, regBits_regPut_same _ _ _ _ (by decide)] at h

/-- GET.PRI of a background layer, after a store to the register that holds its priority (R188). -/
theorem answers_getPri_stored {s : State} {off : Nat} (val : Word16) {index : Nat} {b : Bg} (lsb : Nat)
    (hindex : layerOfIndex index = some (.bg b)) (hpri : (layerFields s.config b).pri = { off := off, lsb := lsb, width := 3 })
    (hle : off ≤ 0x1FE) :
    Answers (s.setBank (regPut s.reg off val)) (.getPri index) (.priority (val.toNat / 2 ^ lsb % 8)) := by
  have hvalue : priorityOf s.config (regPut s.reg off val) s.sprite (.bg b) = val.toNat / 2 ^ lsb % 8 := by
    rw [priorityOf, hpri, fld_eq_regBits, regBits_regPut_same _ _ _ _ hle]
    rfl
  rw [← hvalue]
  exact withLayer_next.mpr ⟨_, hindex, rfl⟩

/-- Settles O16: each register holds the priorities of its layers at bits 2:0 and 10:8 (R24). -/
theorem priorityWritesAreReadByGetPri : Obligations.PriorityWritesAreReadByGetPri := by
  unfold Obligations.PriorityWritesAreReadByGetPri
  intro s val hc
  have hlow : val.toNat % 8 = val.toNat / 2 ^ 0 % 8 := by rw [Nat.pow_zero, Nat.div_one]
  have hpri : ∀ b, (layerFields s.config b).pri = (layerFields Config.default b).pri := fun b => by rw [hc]
  rw [hlow]
  refine ⟨exists_stored rfl (by decide) (by decide) ⟨?nbg0, ?nbg1⟩, exists_stored rfl (by decide) (by decide) ⟨?nbg2, ?nbg3⟩,
    exists_stored rfl (by decide) (by decide) ?rbg0⟩
  case nbg0 => exact answers_getPri_stored val 0 rfl (hpri .nbg0) (by decide)
  case nbg1 => exact answers_getPri_stored val 8 rfl (hpri .nbg1) (by decide)
  case nbg2 => exact answers_getPri_stored val 0 rfl (hpri .nbg2) (by decide)
  case nbg3 => exact answers_getPri_stored val 8 rfl (hpri .nbg3) (by decide)
  case rbg0 => exact answers_getPri_stored val 0 rfl (hpri .rbg0) (by decide)

end Sys2Proof.Machine

/-! SUPPORT. Host transactions on video memory (R87, R88), by the bytes of their values. -/

namespace Sys2Proof.Machine

open Sys2Proof.Claims

theorem accessOk_eq_false {size addr n : Nat} (h : ¬(addr % n = 0 ∧ addr + n ≤ size)) : accessOk size addr n = false :=
  Bool.eq_false_iff.mpr (mt (accessOk_iff size addr n).mp h)

/-- A host write of video memory out of contract (R222, code 3). -/
theorem hostVramWrite_bad {s : State} {addr : Nat} {bytes : List Byte}
    (h : ¬(addr % bytes.length = 0 ∧ addr + bytes.length ≤ s.config.vramBytes)) :
    hostVramWrite addr bytes s = .fault (.badMemAccess .vram addr bytes.length) := by
  rw [hostVramWrite, accessOk_eq_false h]
  rfl

/-- A host read of video memory out of contract (R222, code 3). -/
theorem hostVramRead_bad {s : State} {addr n : Nat} (value : Snap → Nat → Answer)
    (h : ¬(addr % n = 0 ∧ addr + n ≤ s.config.vramBytes)) :
    hostVramRead addr n value s = .fault (.badMemAccess .vram addr n) := by
  rw [hostVramRead, accessOk_eq_false h]
  rfl

/-- The bytes are those of the number `v`, most significant first (R41). -/
def BytesOf (bytes : List Byte) (v : Nat) : Prop :=
  ∀ k, k < bytes.length → (bytes.getD k 0).toNat = v / 256 ^ (bytes.length - 1 - k) % 256

/-- One byte of a word, counted from the least significant. -/
theorem byteField_toNat {n : Nat} (v : BitVec n) (j : Nat) : (v.extractLsb' (8 * j) 8).toNat = v.toNat / 256 ^ j % 256 := by
  rw [field_toNat, Nat.pow_mul]
  rfl

theorem bytesOf_byte (v : Byte) : BytesOf [v] v.toNat := by
  intro k hk
  obtain rfl : k = 0 := Nat.lt_one_iff.mp hk
  have := v.isLt
  change v.toNat = v.toNat / 256 ^ 0 % 256
  omega

theorem bytesOf_bytesOf16 (v : Word16) : BytesOf (bytesOf16 v) v.toNat := by
  intro k hk
  change k < 2 at hk
  interval_cases k
  · exact byteField_toNat v 1
  · exact byteField_toNat v 0

theorem bytesOf_bytesOf32 (v : Word32) : BytesOf (bytesOf32 v) v.toNat := by
  intro k hk
  change k < 4 at hk
  interval_cases k
  · exact byteField_toNat v 3
  · exact byteField_toNat v 2
  · exact byteField_toNat v 1
  · exact byteField_toNat v 0

/-- A write of the bytes of a number stores the number big-endian. -/
theorem stored_writeBytes (sp : Space) (m : Memory) {size addr v : Nat} {bytes : List Byte} (hv : BytesOf bytes v)
    (h : addr + bytes.length ≤ size) : Stored sp size m (writeBytes m size addr bytes) addr bytes.length v := by
  intro a ha
  rw [readByte_of_lt _ _ ha, readByte_of_lt _ _ ha, memGet_writeBytes _ _ _ _ _ _ h]
  split
  · next hin =>
    have hplace : bytes.length - 1 - (a - addr) = addr + bytes.length - 1 - a := by omega
    rw [hv _ (by omega), hplace]
  · rfl

/-- R87, whatever the width: an operation that is the host write of the bytes of a number. -/
theorem videoMemoryWrite_of_bytes {s : State} {i : Instr} {addr v : Nat} {bytes : List Byte}
    (hexec : exec i s = hostVramWrite addr bytes s) (hv : BytesOf bytes v) : VideoMemoryWrite s i addr bytes.length v := by
  rw [VideoMemoryWrite, hexec]
  refine ⟨fun h => ⟨_, hostVramWrite_next.mpr ⟨(accessOk_iff _ _ _).mpr h, rfl⟩, stored_writeBytes .vram s.vram hv h.2⟩,
    hostVramWrite_bad⟩

/-- Settles O17: the three widths are host writes of the bytes of their values. -/
theorem videoMemoryWriteStoresBigEndian : Obligations.VideoMemoryWriteStoresBigEndian := by
  unfold Obligations.VideoMemoryWriteStoresBigEndian
  intro s addr _
  exact ⟨fun val => videoMemoryWrite_of_bytes rfl (bytesOf_byte val),
    fun val => videoMemoryWrite_of_bytes rfl (bytesOf_bytesOf16 val),
    fun val => videoMemoryWrite_of_bytes rfl (bytesOf_bytesOf32 val)⟩

/-- VRAMRD.L in contract (R88). -/
theorem answers_vramrdL {s : State} {a : BitVec 24} (heven : a.toNat % 4 = 0) (h : a.toNat + 4 ≤ s.config.vramBytes) :
    Answers s (.vramrdL a) (.long (read32 .vram s.vram s.config.vramBytes a.toNat)) := by
  rw [Answers, exec, execVramrdL]
  exact hostVramRead_next.mpr ⟨(accessOk_iff _ _ _).mpr ⟨heven, h⟩, rfl⟩

section BigEndian

variable (sp : Space) (m : Memory) (size a : Nat)

theorem readByte_eq_bigEndian : (readByte sp m size a).toNat = bigEndian sp m size a 1 := by
  rw [bigEndian, bigEndian, Nat.zero_mul, Nat.zero_add, Nat.add_zero]

theorem read16_eq_bigEndian : (read16 sp m size a).toNat = bigEndian sp m size a 2 := by
  rw [read16_toNat, readByte_eq_bigEndian, bigEndian.eq_2 _ _ _ _ 1]

theorem read32_eq_bigEndian : (read32 sp m size a).toNat = bigEndian sp m size a 4 := by
  rw [read32_toNat, readByte_eq_bigEndian sp m size a, bigEndian.eq_2 _ _ _ _ 3, bigEndian.eq_2 _ _ _ _ 2,
    bigEndian.eq_2 _ _ _ _ 1]
  omega

end BigEndian

/-- Settles O18: each read in contract answers the bytes of its width. -/
theorem videoMemoryReadAnswersBigEndian : Obligations.VideoMemoryReadAnswersBigEndian := by
  unfold Obligations.VideoMemoryReadAnswersBigEndian
  intro s addr size
  refine ⟨fun h => ⟨_, answers_vramrdB h, readByte_eq_bigEndian _ _ _ _⟩,
    fun heven h => ⟨_, answers_vramrdW heven h, read16_eq_bigEndian _ _ _ _⟩,
    fun heven h => ⟨_, answers_vramrdL heven h, read32_eq_bigEndian _ _ _ _⟩, fun h => ?badByte, fun h => ?badWord,
    fun h => ?badLong⟩
  case badByte =>
    rw [exec, execVramrdB]
    exact hostVramRead_bad _ fun ⟨_, hin⟩ => Nat.not_le_of_lt h hin
  case badWord =>
    rw [exec, execVramrdW]
    exact hostVramRead_bad _ h
  case badLong =>
    rw [exec, execVramrdL]
    exact hostVramRead_bad _ h

end Sys2Proof.Machine

/-! SUPPORT. Host transactions on colour memory (R93, R94), by the laws of stores that video memory has. -/

namespace Sys2Proof.Machine

open Sys2Proof.Claims

section Stored

variable {sp : Space} {size : Nat} {m m' : Memory} {addr n v a : Nat}

/-- A byte inside a store. -/
theorem stored_inside (h : Stored sp size m m' addr n v) (ha : a < size) (hin : addr ≤ a ∧ a < addr + n) :
    (readByte sp m' size a).toNat = v / 256 ^ (addr + n - 1 - a) % 256 :=
  (h a ha).trans (if_pos hin)

/-- A byte outside a store. -/
theorem stored_outside (h : Stored sp size m m' addr n v) (ha : a < size) (hout : ¬(addr ≤ a ∧ a < addr + n)) :
    readByte sp m' size a = readByte sp m size a :=
  BitVec.eq_of_toNat_eq ((h a ha).trans (if_neg hout))

end Stored

section Mirror

variable {addr n v : Nat} {m m₁ m₂ : Memory} {mirrored : Prop}

/-- An aligned access that begins below an aligned end stays below it. -/
theorem aligned_add_le {k : Nat} (haddr : addr % n = 0) (hk : n ∣ k) (hlt : addr < k) : addr + n ≤ k := by
  have hgap : n ≤ k - addr := Nat.le_of_dvd (Nat.sub_pos_of_lt hlt) (Nat.dvd_sub hk (Nat.dvd_of_mod_eq_zero haddr))
  omega

/-- The other half of colour memory (R93), in plain arithmetic: bit 11 flipped is half the space further on, around its end. -/
theorem shadowAddr_eq (h : addr < 0x1000) : shadowAddr addr = (addr + 0x800) % 0x1000 := by
  have hlow : shadowAddr addr % 2 ^ 11 = addr % 2 ^ 11 := Nat.xor_mod_two_pow.trans (Nat.xor_zero _)
  have hhigh : shadowAddr addr / 2 ^ 11 = addr / 2 ^ 11 ^^^ 1 := Nat.xor_div_two_pow
  have hflip : ∀ b < 2, b ^^^ 1 = 1 - b := by decide
  rw [hflip _ (by omega)] at hhigh
  omega

/-- An access in contract lies in one half of colour memory, and its mirror in the same place of the other half. -/
theorem shadowAddr_halves (halign : addr % n = 0) (hdvd : n ∣ 0x800) (hin : addr + n ≤ 0x1000) :
    (addr + n ≤ 0x800 ∧ shadowAddr addr = addr + 0x800) ∨ (0x800 ≤ addr ∧ shadowAddr addr = addr - 0x800) := by
  have hn : 0 < n := Nat.pos_of_dvd_of_pos hdvd (by decide)
  have hshadow : shadowAddr addr = (addr + 0x800) % 0x1000 := shadowAddr_eq (by omega)
  rcases Nat.lt_or_ge addr 0x800 with hlt | hge
  · exact .inl ⟨aligned_add_le halign hdvd hlt, by omega⟩
  · exact .inr ⟨hge, by omega⟩

/-- A store without its mirror. -/
theorem storedTwice_of_stored (hmode : ¬mirrored) (h : Stored .cram 0x1000 m m₁ addr n v) :
    StoredTwice mirrored m m₁ addr n v := fun _ ha =>
  ⟨stored_inside h ha, fun hmirrored => absurd hmirrored hmode, fun hout _ => stored_outside h ha hout⟩

/-- A store followed by the same store in the other half: the two do not meet. -/
theorem storedTwice_of_mirror (halign : addr % n = 0) (hdvd : n ∣ 0x800) (hbound : addr + n ≤ 0x1000) (hmode : mirrored)
    (h₁ : Stored .cram 0x1000 m m₁ addr n v) (h₂ : Stored .cram 0x1000 m₁ m₂ (shadowAddr addr) n v) :
    StoredTwice mirrored m m₂ addr n v := by
  intro a ha b
  have hhalf := shadowAddr_halves halign hdvd hbound
  have hmirror : addr ≤ b ∧ b < addr + n ↔ shadowAddr addr ≤ a ∧ a < shadowAddr addr + n := by omega
  refine ⟨fun hin => ?direct, fun _ hin => ?mirror, fun hout houtMirror => ?other⟩
  case direct =>
    have hapart : ¬(shadowAddr addr ≤ a ∧ a < shadowAddr addr + n) := by omega
    rw [stored_outside h₂ ha hapart, stored_inside h₁ ha hin]
  case mirror =>
    have hplace : shadowAddr addr + n - 1 - a = addr + n - 1 - b := by omega
    rw [stored_inside h₂ ha (hmirror.mp hin), hplace]
  case other =>
    have hapart : ¬(shadowAddr addr ≤ a ∧ a < shadowAddr addr + n) := fun hin => houtMirror ⟨hmode, hmirror.mpr hin⟩
    rw [stored_outside h₂ ha hapart, stored_outside h₁ ha hout]

end Mirror

/-- A host write of colour memory out of contract (R222, code 3). -/
theorem hostCramWrite_bad {s : State} {addr : Nat} {bytes : List Byte}
    (h : ¬(addr % bytes.length = 0 ∧ addr + bytes.length ≤ 0x1000)) :
    hostCramWrite addr bytes s = .fault (.badMemAccess .cram addr bytes.length) := by
  rw [hostCramWrite, cramBytes, accessOk_eq_false h]
  rfl

/-- A host read of colour memory out of contract (R222, code 3). -/
theorem hostCramRead_bad {s : State} {addr n : Nat} (value : Memory → Nat → Answer) (h : ¬(addr % n = 0 ∧ addr + n ≤ 0x1000)) :
    hostCramRead addr n value s = .fault (.badMemAccess .cram addr n) := by
  rw [hostCramRead, cramBytes, accessOk_eq_false h]
  rfl

/-- R93, whatever the width: an operation that is the host write of the bytes of a number. The width divides the half, so that the
mirror of an access in contract is inside colour memory and apart from it. -/
theorem colourMemoryWrite_of_bytes {s : State} {i : Instr} {addr v : Nat} {bytes : List Byte}
    (hexec : exec i s = hostCramWrite addr bytes s) (hv : BytesOf bytes v) (hdvd : bytes.length ∣ 0x800) :
    ColourMemoryWrite s i addr bytes.length v := by
  rw [ColourMemoryWrite, hexec]
  refine ⟨fun h => ⟨_, hostCramWrite_next.mpr ⟨(accessOk_iff _ _ _).mpr h, rfl⟩, ?_⟩, hostCramWrite_bad⟩
  obtain ⟨halign, hbound⟩ := h
  have hdirect : Stored .cram 0x1000 s.cram (writeBytes s.cram cramBytes addr bytes) addr bytes.length v :=
    stored_writeBytes .cram s.cram hv hbound
  split
  · next hmode =>
    have hfits : shadowAddr addr + bytes.length ≤ 0x1000 := by
      have := shadowAddr_halves halign hdvd hbound
      omega
    exact storedTwice_of_mirror halign hdvd hbound hmode hdirect (stored_writeBytes .cram _ hv hfits)
  · next hmode => exact storedTwice_of_stored hmode hdirect

/-- Settles O20: the three widths are host writes of the bytes of their values. -/
theorem colourMemoryWriteMirrorsInLegacyMode : Obligations.ColourMemoryWriteMirrorsInLegacyMode := by
  unfold Obligations.ColourMemoryWriteMirrorsInLegacyMode
  intro s addr _
  exact ⟨fun val => colourMemoryWrite_of_bytes rfl (bytesOf_byte val) (one_dvd 0x800),
    fun val => colourMemoryWrite_of_bytes rfl (bytesOf_bytesOf16 val) (by decide : 2 ∣ 0x800),
    fun val => colourMemoryWrite_of_bytes rfl (bytesOf_bytesOf32 val) (by decide : 4 ∣ 0x800)⟩

section Reads

variable {s : State} {a : BitVec 24}

/-- CRAMRD.B in contract (R94). -/
theorem answers_cramrdB (h : a.toNat + 1 ≤ 0x1000) :
    Answers s (.cramrdB a) (.byte (readByte .cram s.cram 0x1000 a.toNat)) := by
  rw [Answers, exec, execCramrdB]
  exact hostCramRead_next.mpr ⟨(accessOk_iff _ _ _).mpr ⟨Nat.mod_one _, h⟩, rfl⟩

/-- CRAMRD.W in contract (R94). -/
theorem answers_cramrdW (heven : a.toNat % 2 = 0) (h : a.toNat + 2 ≤ 0x1000) :
    Answers s (.cramrdW a) (.word (read16 .cram s.cram 0x1000 a.toNat)) := by
  rw [Answers, exec, execCramrdW]
  exact hostCramRead_next.mpr ⟨(accessOk_iff _ _ _).mpr ⟨heven, h⟩, rfl⟩

/-- CRAMRD.L in contract (R94). -/
theorem answers_cramrdL (halign : a.toNat % 4 = 0) (h : a.toNat + 4 ≤ 0x1000) :
    Answers s (.cramrdL a) (.long (read32 .cram s.cram 0x1000 a.toNat)) := by
  rw [Answers, exec, execCramrdL]
  exact hostCramRead_next.mpr ⟨(accessOk_iff _ _ _).mpr ⟨halign, h⟩, rfl⟩

end Reads

/-- Settles O21: each read in contract answers the bytes of its width, and no case asks for the mode. -/
theorem colourMemoryReadAnswersBigEndian : Obligations.ColourMemoryReadAnswersBigEndian := by
  unfold Obligations.ColourMemoryReadAnswersBigEndian
  intro s addr
  refine ⟨fun h => ⟨_, answers_cramrdB h, readByte_eq_bigEndian _ _ _ _⟩,
    fun heven h => ⟨_, answers_cramrdW heven h, read16_eq_bigEndian _ _ _ _⟩,
    fun halign h => ⟨_, answers_cramrdL halign h, read32_eq_bigEndian _ _ _ _⟩, fun h => ?badByte, fun h => ?badWord,
    fun h => ?badLong⟩
  case badByte =>
    rw [exec, execCramrdB]
    exact hostCramRead_bad _ fun ⟨_, hin⟩ => Nat.not_le_of_lt h hin
  case badWord =>
    rw [exec, execCramrdW]
    exact hostCramRead_bad _ h
  case badLong =>
    rw [exec, execCramrdL]
    exact hostCramRead_bad _ h

end Sys2Proof.Machine

/-! SUPPORT. The palette multiplexer (R92, R95 to R98): the colour of a word, and the word of a slot. -/

namespace Sys2Proof.Machine

open Sys2Proof.Claims

/-- A 5-bit value in the top bits of its channel (R92). -/
theorem channel_toNat (x : BitVec 5) : (x.setWidth 8 <<< 3).toNat = x.toNat * 8 := by
  have := x.isLt
  rw [BitVec.toNat_shiftLeft, BitVec.toNat_setWidth, Nat.shiftLeft_eq]
  omega

/-- R92 as numbers: the three channels of EXPAND1, whatever the alpha channel put beside them. -/
theorem isColour_expandOne (w : Word16) (alpha : Byte) : IsColour (rgba (expandOne w) alpha) w.toNat alpha :=
  ⟨(channel_toNat _).trans (congrArg (· * 8) (lowField_toNat w 5)),
    (channel_toNat _).trans (congrArg (· * 8) (field_toNat w 5 5)),
    (channel_toNat _).trans (congrArg (· * 8) (field_toNat w 10 5)), rfl⟩

/-- Settles O23: the channels of R92, and for EXPAND2 the OPEN function of the two words (R98). -/
theorem expandOperationsAnswerTheColour : Obligations.ExpandOperationsAnswerTheColour := by
  unfold Obligations.ExpandOperationsAnswerTheColour
  refine ⟨fun s w => ⟨expandOne w, rfl, ?_⟩, fun w1 w2 => ⟨expandTwo w1 w2, fun _ => rfl⟩⟩
  obtain ⟨hr, hg, hb, -⟩ := isColour_expandOne w 0
  exact ⟨hr, hg, hb⟩

/-- A word of colour memory, as a number. -/
theorem cram16_eq_bigEndian (s : State) (a : Nat) : (cram16 s.snap a).toNat = bigEndian .cram s.cram 0x1000 a 2 :=
  read16_eq_bigEndian .cram s.cram 0x1000 a

/-- Addresses of colour memory wrap at its end (R42). -/
theorem cram16_mod (v : Snap) (a : Nat) : cram16 v (a % 0x1000) = cram16 v a := by
  have hbyte : ∀ k, readByte .cram v.cram cramBytes (a % 0x1000 + k) = readByte .cram v.cram cramBytes (a + k) := fun k =>
    congrArg (memGet .cram v.cram) (Nat.mod_add_mod a 0x1000 k)
  exact congrArg₂ (· ++ ·) (hbyte 0) (hbyte 1)

/-- The pixel of the slot at `a` in the two modes of one word per slot (R95, R96). -/
theorem isColour_slot (s : State) (a : Nat) (alpha : Byte) :
    IsColour (rgba (expandOne (cram16 s.snap a)) alpha) (bigEndian .cram s.cram 0x1000 a 2) alpha :=
  cram16_eq_bigEndian s a ▸ isColour_expandOne (cram16 s.snap a) alpha

/-- Settles O24: each form reads its slot at the default bank size; the mode enters no formula. -/
theorem resolveReadsItsSlot : Obligations.ResolveReadsItsSlot := by
  unfold Obligations.ResolveReadsItsSlot
  intro s index bankSel alpha hc _ word
  have hbank : s.snap.config.cramBankBytes = 0x200 := by rw [State.snap_config, hc]; rfl
  refine ⟨⟨_, rfl, ?legacy⟩, ⟨_, rfl, ?wide⟩, ⟨_, _, _, cram16_eq_bigEndian s _, cram16_eq_bigEndian s _, rfl, ?extended⟩⟩
  case legacy =>
    rw [resolveInLegacy, hbank]
    exact isColour_slot s _ alpha
  case wide =>
    rw [resolveInWide, hbank]
    exact isColour_slot s _ alpha
  case extended =>
    rw [Answers, exec, execResolveExt, resolveInExtended, hbank, cram16_mod _ (_ + 2)]
    rfl

end Sys2Proof.Machine

/-! SUPPORT. LAYER.INIT under the default register map (R105 to R119): where a layer's fields lie, and what each decode makes of
them as a number. -/

namespace Sys2Proof.Machine

open Sys2Proof.Claims

/-! ## The positions of the fields -/

/-- The fields of `own`, those that every layer has in the same form put where R19, R21, R22 and R24 put them for the layer of
index `n`. -/
def fieldsAtIndex (n : Nat) (own : LayerFields) : LayerFields :=
  { own with
    on := bitField 0x020 n
    tpdis := bitField 0x020 (8 + n)
    pnb := bitField (0x030 + 2 * n) 15
    cnsm := bitField (0x030 + 2 * n) 14
    supp := { off := 0x030 + 2 * n, lsb := 0, width := 10 }
    plsz := { off := 0x03A, lsb := 2 * n, width := 2 }
    mpof := { off := 0x03C + 2 * (n / 4), lsb := 4 * (n % 4), width := 3 }
    mp := planeSelectorFields (0x040 + 4 * n) (2 * (1 + n / 4) * (2 * (1 + n / 4)))
    caos := { off := 0x0E4 + 2 * (n / 4), lsb := 4 * (n % 4), width := 3 }
    pri := { off := 0x0F8 + 2 * (n / 2), lsb := 8 * (n % 2), width := 3 }
    ccen := bitField 0x0EC n
    ccrt := { off := 0x108 + 2 * (n / 2), lsb := 8 * (n % 2), width := 5 }
    coen := bitField 0x110 n
    cosl := bitField 0x112 n }

/-- The default register map puts the common fields of every layer by its index. -/
theorem layerFields_default (l : Bg) :
    layerFields Config.default l = fieldsAtIndex (bgRank l) (layerFields Config.default l) := by
  cases l <;> rfl

/-- A common field of a layer, as the bits at its position. -/
theorem fld_default (reg : Bank) (l : Bg) (get : LayerFields → Field) :
    let f := get (fieldsAtIndex (bgRank l) (layerFields Config.default l))
    fld reg (get (layerFields Config.default l)) = regBits reg f.off f.lsb f.width := by
  rw [← layerFields_default, fld_eq_regBits]

/-- The bits of a field that a layer may lack, 0 where it does (log entry 22). -/
def optBits (reg : Bank) : Option Field → Nat
  | some f => regBits reg f.off f.lsb f.width
  | none => 0

theorem fldOpt_eq_optBits (reg : Bank) (o : Option Field) : fldOpt reg o = optBits reg o := by
  cases o with
  | none => rfl
  | some f => exact fld_eq_regBits reg f

/-- A field of bounded width lies in one register and has at most that width. -/
theorem wfAtMost_iff {n : Nat} {f : Field} : f.wfAtMost n = true ↔ f.wf = true ∧ f.width ≤ n := by
  simp [Field.wfAtMost]

/-- A field of at most `n` bits reads below `2 ^ n`, and so does one that the layer lacks. -/
theorem optBits_lt {n : Nat} {o : Option Field} (h : o.all (Field.wfAtMost n) = true) (reg : Bank) : optBits reg o < 2 ^ n := by
  cases o with
  | none => exact Nat.two_pow_pos n
  | some f =>
    obtain ⟨-, hwidth⟩ := wfAtMost_iff.mp h
    exact (regBits_lt reg f.off f.lsb f.width).trans_le (Nat.pow_le_pow_right two_pos hwidth)

/-! ## The decodes of R109 to R118 -/

section Decodes

variable (reg : Bank) (l : Bg)

theorem depthNumber_of_depthOf {n : Nat} {d : Depth} (hn : n ≤ 4) (h : depthOf n = .ok d) : depthNumber d = n := by
  interval_cases n <;> cases h <;> rfl

theorem planeShapeOf_default {n : Nat} (h : n < 4) :
    planeShapeOf Config.default n = [(1, 1), (2, 1), (1, 1), (2, 2)].getD n (0, 0) := by
  interval_cases n <;> rfl

theorem bitmapSizeOf_eq {n : Nat} (h : n < 4) :
    bitmapSizeOf n = [(512, 256), (512, 512), (1024, 256), (1024, 512)].getD n (0, 0) := by
  interval_cases n <;> rfl

theorem bgMapWH_default : bgMapWH Config.default l = 2 * (1 + bgRank l / 4) := by
  cases l <;> rfl

/-- RBG0, of index 4, is the rotation layer (R106). -/
theorem bgRotation_iff : bgRotation l = true ↔ bgRank l = 4 := by
  cases l <;> decide

/-- PNB selects pattern names of one word where it is set, and of two where it is not (R111). -/
theorem patternWords_eq {b : Nat} (h : b < 2) : (if b = 1 then 1 else 2) = 2 - b := by
  interval_cases b <;> rfl

theorem planeSelectorFields_length (base n : Nat) : (planeSelectorFields base n).length = n := by
  rw [planeSelectorFields, List.length_map, List.length_range]

/-- The selector byte of the plane `k` (R22, R112). -/
theorem planeSelectors_getElem? {base n k : Nat} (h : k < n) : ((planeSelectorFields base n).map (fld reg))[k]?
    = some (regBits reg (base + 2 * (k / 2)) (8 * (k % 2)) 8) := by
  simp [planeSelectorFields, h, fld_eq_regBits]

/-- A layer's plane selectors, one byte for each plane of its map. -/
theorem planeSelectors_default :
    let side := 2 * (1 + bgRank l / 4)
    (layerFields Config.default l).mp = planeSelectorFields (0x040 + 4 * bgRank l) (side * side) :=
  congrArg LayerFields.mp (layerFields_default l)

/-- BMP fills the top three bits of the palette address (R118). -/
theorem bitmapPalette_toNat {n : Nat} (h : n < 8) : (BitVec.ofNat 7 (n <<< 4)).toNat = n * 16 := by
  rw [BitVec.toNat_ofNat, Nat.shiftLeft_eq]
  omega

/-- `n` bits of a register lose nothing in a bit vector of `n` bits. -/
theorem toNat_ofNat_regBits (off lsb n : Nat) : (BitVec.ofNat n (regBits reg off lsb n)).toNat = regBits reg off lsb n :=
  (BitVec.toNat_ofNat _ _).trans (Nat.mod_eq_of_lt (regBits_lt reg off lsb n))

/-- R116 as a number: the inverted ratio in the top five bits, or 255 where the factor is off. -/
theorem alphaOf_default : (alphaOf Config.default reg l).toNat = if regBits reg 0x0EC (bgRank l) 1 = 0 then 255
    else (31 - regBits reg (0x108 + 2 * (bgRank l / 2)) (8 * (bgRank l % 2)) 5) * 8 := by
  have hccen : fld reg (layerFields Config.default l).ccen = regBits reg 0x0EC (bgRank l) 1 := fld_default reg l LayerFields.ccen
  have hccrt : fld reg (layerFields Config.default l).ccrt = regBits reg (0x108 + 2 * (bgRank l / 2)) (8 * (bgRank l % 2)) 5 :=
    fld_default reg l LayerFields.ccrt
  rw [alphaOf, hccen, hccrt]
  split
  · rfl
  · rw [channel_toNat, BitVec.toNat_not, toNat_ofNat_regBits]

/-- R61: nine bits of a register, as the two's-complement number they hold. -/
theorem offsetValue_colorOffsetField (off : Nat) : offsetValue reg (colorOffsetField off) = signed 9 (regBits reg off 0 9) := by
  have hlt := regBits_lt reg off 0 9
  rw [offsetValue, fld_eq_regBits, sextN, BitVec.toInt_eq_toNat_cond, signed]
  simp only [colorOffsetField, toNat_ofNat_regBits, Nat.mod_eq_of_lt hlt]
  split <;> split <;> omega

/-- R115: set A lies at 0x114, set B six bytes on, and COSL chooses. -/
theorem colorOffsetOf_default : colorOffsetOf Config.default reg l
    = if regBits reg 0x110 (bgRank l) 1 = 0 then { r := 0, g := 0, b := 0 }
      else
        let set := 0x114 + 6 * regBits reg 0x112 (bgRank l) 1
        { r := signed 9 (regBits reg set 0 9), g := signed 9 (regBits reg (set + 2) 0 9),
          b := signed 9 (regBits reg (set + 4) 0 9) } := by
  have hcoen : fld reg (layerFields Config.default l).coen = regBits reg 0x110 (bgRank l) 1 := fld_default reg l LayerFields.coen
  have hcosl : fld reg (layerFields Config.default l).cosl = regBits reg 0x112 (bgRank l) 1 := fld_default reg l LayerFields.cosl
  have hlt := regBits_lt reg 0x112 (bgRank l) 1
  simp only [colorOffsetOf, hcoen, hcosl, ← offsetValue_colorOffsetField]
  split
  · rfl
  · interval_cases regBits reg 0x112 (bgRank l) 1 <;> rfl

end Decodes

/-! ## The record -/

/-- LAYER.INIT under the default configuration, for the layer of any index: the arguments that R20, R21 and R23 place layer by layer
are what the register map names for it. -/
theorem initAnswers_default {s : State} (hc : s.config = Config.default) (l : Bg) :
    let f := layerFields Config.default l
    let b := fun g : Field => regBits s.reg g.off g.lsb g.width
    InitAnswers s l (bgRank l) (b f.chsz) (b f.chcn) (optBits s.reg f.bmsz) (optBits s.reg f.bmp) (optBits s.reg f.scx)
      (optBits s.reg f.scy) (bgBitmapCapable l && optBits s.reg f.bmen == 1) := by
  intro f b
  have hchcn : fld s.reg (layerFields s.config l).chcn = b f.chcn := by rw [hc]; exact fld_eq_regBits _ _
  refine ⟨fun h => exec_layerInit_error (hchcn ▸ depthOf_reserved h), fun h => ?_⟩
  obtain ⟨d, hd⟩ := depthOf_ok h
  have hbmsz : optBits s.reg f.bmsz < 2 ^ 2 := optBits_lt (by cases l <;> decide) s.reg
  have hbmp : optBits s.reg f.bmp < 2 ^ 3 := optBits_lt (by cases l <;> decide) s.reg
  refine ⟨layerRecord s.snap l d, exec_layerInit_ok (hchcn ▸ hd), ?_⟩
  simp only [layerRecord, State.snap_config, State.snap_reg, hc, fldOpt_eq_optBits, bgMapWH_default]
  refine ⟨trivial, depthNumber_of_depthOf h hd, rfl, rfl, rfl, ?enabled, ?transparency, ?patternWH, ?pageWH, ?names, ?auxMode,
    ?supp, ?planes, trivial, ?mapOffset, ?selectors, ?selector, bitmapSizeOf_eq hbmsz, rfl, ?palette, ?bank, ?priority, trivial,
    alphaOf_default s.reg l, colorOffsetOf_default s.reg l, ?charExt, ?scroll, ?rotation⟩
  case enabled => rw [bgEnabled, fld_default s.reg l LayerFields.on]; exact beq_iff_eq
  case transparency => rw [fld_default s.reg l LayerFields.tpdis]; exact beq_iff_eq
  case patternWH => rw [fld_eq_regBits]
  case pageWH => rw [fld_eq_regBits]
  case names => rw [fld_default s.reg l LayerFields.pnb]; exact patternWords_eq (regBits_lt _ _ _ 1)
  case auxMode => exact fld_default s.reg l LayerFields.cnsm
  case supp => rw [fld_default s.reg l LayerFields.supp]; exact toNat_ofNat_regBits _ _ _ 10
  case planes => rw [fld_default s.reg l LayerFields.plsz]; exact planeShapeOf_default (regBits_lt _ _ _ 2)
  case mapOffset => exact fld_default s.reg l LayerFields.mpof
  case selectors => rw [planeSelectors_default, List.length_map, planeSelectorFields_length]
  case selector =>
    intro k hk
    rw [planeSelectors_default]
    exact planeSelectors_getElem? s.reg hk
  case palette => exact bitmapPalette_toNat hbmp
  case bank => exact fld_default s.reg l LayerFields.caos
  case priority => exact fld_default s.reg l LayerFields.pri
  case charExt => rw [fld_eq_regBits]; exact beq_iff_eq
  case scroll =>
    intro hn
    exact if_neg fun hrot => absurd ((bgRotation_iff l).mp hrot) (by omega)
  case rotation =>
    intro hn
    exact ⟨rotLoadTable s.snap, rfl, if_pos ((bgRotation_iff l).mpr hn)⟩

/-- Settles O25: the record of each layer, at the positions that the register map gives its own fields. -/
theorem layerInitDecodesTheRegisters : Obligations.LayerInitDecodesTheRegisters := by
  unfold Obligations.LayerInitDecodesTheRegisters
  intro s hc b
  exact ⟨initAnswers_default hc .nbg0, initAnswers_default hc .nbg1, initAnswers_default hc .nbg2, initAnswers_default hc .nbg3,
    initAnswers_default hc .rbg0⟩

end Sys2Proof.Machine

/-! SUPPORT. Tile-map addressing (R125 to R131, R141): the addresses as plain arithmetic. -/

namespace Sys2Proof.Machine

open Sys2Proof.Claims

/-- Settles O27: R125's two sums, bounded by the ranges of R25. -/
theorem scrollCoordAddsTheOrigin : Obligations.ScrollCoordAddsTheOrigin := by
  unfold Obligations.ScrollCoordAddsTheOrigin
  intro s cfg sx sy hwf hsx hsy
  obtain ⟨-, -, -, -, -, -, -, hscrollX, hscrollY, -⟩ := LayerCfg.wf_ranges hwf
  exact ⟨sx + cfg.scrollX, sy + cfg.scrollY, rfl, rfl, rfl, by omega, by omega⟩

/-- R127: the bytes of a page are those of the table. -/
theorem pageBytes_eq_pageSize {g : LayerCfg} (h : g.wf = true) : pageBytes g = pageSize g := by
  obtain ⟨-, -, -, hwords, hside, hpage, -⟩ := LayerCfg.wf_ranges h
  rw [pageBytes, pageSize, hpage]
  rcases hwords with hwords | hwords <;> rcases hside with hside | hside <;> simp [hwords, hside]

/-- The map-offset bits stand above the six low bits of the selector byte (R128). -/
theorem planeSelector_eq (offset sel : Nat) : offset <<< 6 ||| (sel &&& 0x3F) = offset * 64 + sel % 64 := by
  have hlow : sel &&& 0x3F = sel % 64 := Nat.and_two_pow_sub_one_eq_mod sel 6
  rw [hlow, ← Nat.shiftLeft_add_eq_or_of_lt (show sel % 64 < 2 ^ 6 from Nat.mod_lt _ (by decide)), Nat.shiftLeft_eq]

/-- R128, for the selector byte of the map index. -/
theorem planeBase_eq (c : Config) {g : LayerCfg} (h : g.wf = true) {k sel : Nat} (hsel : g.planeSel[k]? = some sel) :
    planeBase c g k = (g.mapOffset * 64 + sel % 64) / 2 ^ (g.planeW + g.planeH - 2) * (g.planeW * g.planeH) * pageSize g
      % c.vramBytes := by
  simp only [planeBase, List.getD_eq_getElem?_getD, hsel, Option.getD_some, planeSelector_eq, Nat.shiftRight_eq_div_pow,
    pageBytes_eq_pageSize h]

/-- Settles O28: every map index has its selector byte. -/
theorem planeAddrFollowsTheFormula : Obligations.PlaneAddrFollowsTheFormula := by
  unfold Obligations.PlaneAddrFollowsTheFormula
  intro s cfg k hwf hk
  obtain ⟨-, -, -, -, -, -, hlength, -⟩ := LayerCfg.wf_ranges hwf
  have hsel : cfg.planeSel[k]? = some cfg.planeSel[k] := List.getElem?_eq_getElem (hlength ▸ hk)
  exact ⟨_, hsel, planeBase_eq s.config hwf hsel ▸ rfl⟩

/-- The last pattern name of a page is its last bytes (R131). -/
theorem lastPatternName_eq {g : LayerCfg} (h : g.wf = true) (pageAddr : Nat) :
    let side := 8 * g.patternWH
    pageAddr + (511 / side * (64 / g.patternWH) + 511 / side) * g.patternDataSize * 2
      = pageAddr + pageSize g - g.patternDataSize * 2 := by
  obtain ⟨-, -, -, hwords, hside, -, -⟩ := LayerCfg.wf_ranges h
  rw [pageSize]
  rcases hwords with hwords | hwords <;> rcases hside with hside | hside <;> simp [hwords, hside]

/-- Settles O29: a page has 64 / patternWH names in a row (R25). -/
theorem patternNameAddressIsRowMajor : Obligations.PatternNameAddressIsRowMajor := by
  unfold Obligations.PatternNameAddressIsRowMajor
  intro s cfg pageAddr xg yg hwf _ _ side a
  obtain ⟨-, -, -, -, -, hpage, -⟩ := LayerCfg.wf_ranges hwf
  refine ⟨?answer, fun heven hsize => ?even, ?last⟩
  case answer =>
    rw [Answers, exec, execPnAddr, patternNameAt, hpage]
    rfl
  case even => exact (Nat.mod_mod_of_dvd _ (Nat.dvd_of_mod_eq_zero hsize)).trans (by omega)
  case last =>
    rintro rfl rfl
    exact congrArg (· % s.config.vramBytes) (lastPatternName_eq hwf pageAddr)

/-- R141: extended addressing off keeps the low 14 bits. -/
theorem charByteAddr_eq (g : LayerCfg) (charNo : BitVec 15) :
    charByteAddr g charNo = (if g.charExt = true then charNo.toNat else charNo.toNat % 2 ^ 14) * 32 := by
  rw [charByteAddr, show charNo.toNat &&& 0x3FFF = _ from Nat.and_two_pow_sub_one_eq_mod charNo.toNat 14]

/-- Settles O31: either number has 15 bits. -/
theorem charFinMasksThenScales : Obligations.CharFinMasksThenScales := by
  unfold Obligations.CharFinMasksThenScales
  intro s cfg charNo
  refine ⟨_, rfl, charByteAddr_eq cfg charNo, ?_⟩
  have := charNo.isLt
  rw [charByteAddr_eq]
  split <;> omega

end Sys2Proof.Machine

/-! SUPPORT. Pattern-name decode (R132 to R138): the decoded fields as numbers, and the operation of each form. -/

namespace Sys2Proof.Machine

open Sys2Proof.Claims

/-- Bits put above a number of `k` bits. -/
theorem or_shiftLeft_toNat {w n k : Nat} {low : BitVec w} (hlow : low.toNat < 2 ^ k) (high : BitVec n) (hw : k + n ≤ w) :
    (low ||| high.setWidth w <<< k).toNat = low.toNat + high.toNat * 2 ^ k := by
  have hlt : high.toNat <<< k < 2 ^ w := by
    rw [Nat.shiftLeft_eq]
    calc high.toNat * 2 ^ k < 2 ^ n * 2 ^ k := Nat.mul_lt_mul_of_pos_right high.isLt (Nat.two_pow_pos k)
      _ = 2 ^ (k + n) := by rw [← Nat.pow_add, Nat.add_comm]
      _ ≤ 2 ^ w := Nat.pow_le_pow_right two_pos hw
  rw [BitVec.toNat_or, BitVec.toNat_shiftLeft, BitVec.toNat_setWidth_of_le (by omega), Nat.mod_eq_of_lt hlt, Nat.or_comm,
    ← Nat.shiftLeft_add_eq_or_of_lt hlow, Nat.shiftLeft_eq, Nat.add_comm]

/-- The character number of the forms with one cell per pattern (R133, R135): supplement bits above the name's. -/
theorem charNo_oneCell {k n : Nat} (name : BitVec k) (ext : BitVec n) (h : k + n ≤ 15) :
    (name.setWidth 15 ||| ext.setWidth 15 <<< k).toNat = name.toNat + ext.toNat * 2 ^ k := by
  have hname : (name.setWidth 15).toNat = name.toNat := BitVec.toNat_setWidth_of_le (by omega)
  rw [or_shiftLeft_toNat (hname ▸ name.isLt) ext h, hname]

/-- The character number of the forms with four cells per pattern (R134, R136): the name's bits above two of the supplement, and
other supplement bits above both. -/
theorem charNo_fourCells {k n : Nat} (name : BitVec k) (low : BitVec 2) (ext : BitVec n) (h : k + 2 + n ≤ 15) :
    (name.setWidth 15 <<< 2 ||| low.setWidth 15 ||| ext.setWidth 15 <<< (k + 2)).toNat
      = name.toNat * 4 + low.toNat + ext.toNat * 2 ^ (k + 2) := by
  have hpair : (name.setWidth 15 <<< 2 ||| low.setWidth 15).toNat = name.toNat * 4 + low.toNat := by
    rw [BitVec.or_comm, Nat.add_comm]
    exact charNo_oneCell low name (by omega)
  have hlt : name.toNat * 4 + low.toNat < 2 ^ (k + 2) := by
    have := name.isLt
    have := low.isLt
    rw [Nat.pow_add]
    omega
  rw [or_shiftLeft_toNat (hpair ▸ hlt) ext h, hpair]

/-- R67, as a number: the palette address of a one-word pattern name. -/
theorem palAddr1w_toNat (pn : Word16) (supp : BitVec 10) (d : Depth) :
    (palAddr1w (pn.extractLsb' 12 4) (supp.extractLsb' 5 3) d).toNat = oneWordPalette pn.toNat supp.toNat d := by
  have hp : (pn.extractLsb' 12 4).toNat = pn.toNat / 4096 := topField_toNat pn rfl
  have hgroup : ((pn.extractLsb' 12 4).extractLsb' 0 3 ++ 0#4).toNat = pn.toNat / 4096 % 8 * 16 := by
    rw [append_toNat, lowField_toNat, hp]
    rfl
  cases d
  case d0 =>
    change (supp.extractLsb' 5 3 ++ pn.extractLsb' 12 4).toNat = pn.toNat / 4096 + supp.toNat / 32 % 8 * 16
    rw [append_toNat, field_toNat, hp, Nat.add_comm]
    rfl
  all_goals exact hgroup

section Decodes

variable (pn : Word16) (supp : BitVec 10) (d : Depth)

/-- R133. -/
theorem isPattern_pnDecodeA0W1 : IsPattern (pnDecodeA0W1 pn supp d) (pn.toNat % 1024 + supp.toNat % 32 * 1024)
    (oneWordPalette pn.toNat supp.toNat d) (pn.toNat / 2048 % 2) (pn.toNat / 1024 % 2) (supp.toNat / 256) := by
  refine ⟨(charNo_oneCell _ _ (by decide)).trans ?_, palAddr1w_toNat pn supp d, bit_toNat pn 11,
    bit_toNat pn 10, topField_toNat supp rfl⟩
  simp only [suppOfBits, pn1A0OfWord, field_toNat]
  omega

/-- R134. -/
theorem isPattern_pnDecodeA0W2 : IsPattern (pnDecodeA0W2 pn supp d)
    (pn.toNat % 1024 * 4 + supp.toNat % 4 + supp.toNat / 4 % 8 * 4096)
    (oneWordPalette pn.toNat supp.toNat d) (pn.toNat / 2048 % 2) (pn.toNat / 1024 % 2) (supp.toNat / 256) := by
  refine ⟨(charNo_fourCells _ _ _ (by decide)).trans ?_, palAddr1w_toNat pn supp d, bit_toNat pn 11,
    bit_toNat pn 10, topField_toNat supp rfl⟩
  simp only [suppOfBits, pn1A0OfWord, field_toNat]
  omega

/-- R135. -/
theorem isPattern_pnDecodeA1W1 : IsPattern (pnDecodeA1W1 pn supp d) (pn.toNat % 4096 + supp.toNat % 8 * 4096)
    (oneWordPalette pn.toNat supp.toNat d) 0 0 (supp.toNat / 256) := by
  refine ⟨(charNo_oneCell _ _ (by decide)).trans ?_, palAddr1w_toNat pn supp d, rfl, rfl, topField_toNat supp rfl⟩
  simp only [suppOfBits, pn1A1OfWord, field_toNat]
  omega

/-- R136. -/
theorem isPattern_pnDecodeA1W2 : IsPattern (pnDecodeA1W2 pn supp d)
    (pn.toNat % 4096 * 4 + supp.toNat % 4 + supp.toNat / 16 % 2 * 16384)
    (oneWordPalette pn.toNat supp.toNat d) 0 0 (supp.toNat / 256) := by
  refine ⟨(charNo_fourCells _ _ _ (by decide)).trans ?_, palAddr1w_toNat pn supp d, rfl, rfl, topField_toNat supp rfl⟩
  simp only [suppOfBits, pn1A1OfWord, field_toNat]
  omega

/-- R137: the character number lies in the second word, all else in the first. -/
theorem isPattern_pnDecode2w (w1 w2 : Word16) : IsPattern (pnDecode2w w1 w2) (w2.toNat % 32768) (w1.toNat % 128)
    (w1.toNat / 32768) (w1.toNat / 16384 % 2) (w1.toNat / 4096 % 4) := by
  have h1 := w1.isLt
  have h2 := w2.isLt
  have hword : (w1 ++ w2).toNat = w1.toNat * 65536 + w2.toNat := append_toNat w1 w2
  refine ⟨(lowField_toNat (w1 ++ w2) 15).trans ?_, (field_toNat (w1 ++ w2) 16 7).trans ?_, (bit_toNat (w1 ++ w2) 31).trans ?_,
    (bit_toNat (w1 ++ w2) 30).trans ?_, (field_toNat (w1 ++ w2) 28 2).trans ?_⟩
  all_goals omega

end Decodes

/-- Settles O30, form by form. -/
theorem patternNamesDecode : Obligations.PatternNamesDecode := by
  unfold Obligations.PatternNamesDecode
  intro s w w2 supp d p e
  exact ⟨⟨_, rfl, isPattern_pnDecodeA0W1 w supp d⟩, ⟨_, rfl, isPattern_pnDecodeA0W2 w supp d⟩,
    ⟨_, rfl, isPattern_pnDecodeA1W1 w supp d⟩, ⟨_, rfl, isPattern_pnDecodeA1W2 w supp d⟩, ⟨_, rfl, isPattern_pnDecode2w w w2⟩⟩

/-- The decode operation of a form, for the pattern name at `a` (R132). -/
def decodeOp (s : State) (g : LayerCfg) (a : Nat) : PnForm → Instr
  | .oneA0W1 => .pnDec1wA0W1 (vram16 s.snap a) g.supp g.depth
  | .oneA0W2 => .pnDec1wA0W2 (vram16 s.snap a) g.supp g.depth
  | .oneA1W1 => .pnDec1wA1W1 (vram16 s.snap a) g.supp g.depth
  | .oneA1W2 => .pnDec1wA1W2 (vram16 s.snap a) g.supp g.depth
  | .two => .pnDec2w (vram16 s.snap a) (vram16 s.snap (a + 2))

theorem answers_decodeOp (s : State) (g : LayerCfg) (a : Nat) (f : PnForm) :
    Answers s (decodeOp s g a f) (.pattern (patternAt s.snap g f a)) := by
  cases f <;> rfl

/-- A word of video memory, from the number of its two bytes. -/
theorem ofNat_bigEndian_vram (s : State) (a : Nat) :
    BitVec.ofNat 16 (bigEndian .vram s.vram s.config.vramBytes a 2) = vram16 s.snap a := by
  rw [← read16_eq_bigEndian, BitVec.ofNat_toNat, BitVec.setWidth_eq]
  rfl

/-- The decode operation of a pattern name is that of the form which the record selects (R138). -/
theorem nameOp_eq (s : State) {g : LayerCfg} (h : g.wf = true) (a : Nat) :
    nameOp s g a = (pnFormOf g).toOption.map (decodeOp s g a) := by
  obtain ⟨-, -, -, hwords, -⟩ := LayerCfg.wf_ranges h
  simp only [nameOp, ofNat_bigEndian_vram]
  rcases hwords with hone | htwo
  · rcases haux : g.auxMode with _ | _ | n
    · by_cases hside : g.patternWH = 1 <;> simp [pnFormOf, hone, haux, hside, decodeOp, Except.toOption]
    · by_cases hside : g.patternWH = 1 <;> simp [pnFormOf, hone, haux, hside, decodeOp, Except.toOption]
    · simp [pnFormOf, hone, haux, Except.toOption]
  · simp [pnFormOf, htwo, decodeOp, Except.toOption]

theorem nameOp_of_form {s : State} {g : LayerCfg} (h : g.wf = true) {f : PnForm} (hf : pnFormOf g = .ok f) (a : Nat) :
    nameOp s g a = some (decodeOp s g a f) := by
  rw [nameOp_eq s h, hf]
  rfl

theorem nameOp_of_error {s : State} {g : LayerCfg} (h : g.wf = true) {r : Refusal} (hr : pnFormOf g = .error r) (a : Nat) :
    nameOp s g a = none := by
  rw [nameOp_eq s h, hr]
  rfl

end Sys2Proof.Machine

/-! SUPPORT. The pixel operations (R126, R143, R163, R164): what each answers along the path that the record selects, and when it
is refused. -/

namespace Sys2Proof.Machine

open Sys2Proof.Claims

section Operations

variable {s : State} {g : LayerCfg}

/-- PIX.FETCH of the record's depth (R150). -/
theorem exec_fetchOp (s : State) (g : LayerCfg) (base : Nat) (pal : BitVec 7) (px py : Nat) :
    exec (fetchOp g base pal px py) s = .next (s.reply (.fetched (pixFetch s.snap g base pal px py))) := by
  unfold fetchOp pixFetch pixelAtDepth
  cases g.depth <;> rfl

/-- TILE.PIXEL through a form. -/
theorem exec_tilePixel_ok {f : PnForm} (h : pnFormOf g = .ok f) (x y : Int) :
    exec (.tilePixel g x y) s = .next (s.reply (.fetched (tilePixelWith s.snap g f x y))) := by
  simp only [exec, execTilePixel, tilePixelOf, h, replyPixel]

/-- TILE.PIXEL without a form (R138). -/
theorem exec_tilePixel_error {r : Refusal} (h : pnFormOf g = .error r) (x y : Int) :
    exec (.tilePixel g x y) s = .refused r := by
  simp only [exec, execTilePixel, tilePixelOf, h, replyPixel, refuse]

/-- LAYER.PIXEL along a path (R164). -/
theorem exec_layerPixel_ok {p : PixelPath} (h : pixelPathOf g = .ok p) (sx sy : Nat) :
    exec (.layerPixel g sx sy) s = .next (s.reply (.fetched (layerPixelWith s.snap g p sx sy))) := by
  simp only [exec, execLayerPixel, layerPixelOf, h, replyPixel]

/-- LAYER.PIXEL without a path (R138). -/
theorem exec_layerPixel_error {r : Refusal} (h : pixelPathOf g = .error r) (sx sy : Nat) :
    exec (.layerPixel g sx sy) s = .refused r := by
  simp only [exec, execLayerPixel, layerPixelOf, h, replyPixel, refuse]

/-- ROT.PIXEL is LAYER.PIXEL (R178). -/
theorem exec_rotPixel (s : State) (g : LayerCfg) (sx sy : Nat) : exec (.rotPixel g sx sy) s = exec (.layerPixel g sx sy) s := rfl

end Operations

section Paths

variable {g : LayerCfg}

/-- One-word pattern names of a reserved auxMode have no form (R138). -/
theorem pnFormOf_reserved (hwords : g.patternDataSize = 1) (haux : 2 ≤ g.auxMode) : pnFormOf g = .error .reservedAuxMode := by
  obtain ⟨n, hn⟩ := Nat.exists_eq_add_of_le' haux
  simp [pnFormOf, hwords, hn]

/-- Bitmap mode has its path whatever the pattern names are (R108). -/
theorem pixelPathOf_bitmap (h : g.bitmap = true) : pixelPathOf g = .ok .bitmap := by
  rw [pixelPathOf, if_pos h]

theorem pixelPathOf_tile (h : g.bitmap = false) {f : PnForm} (hf : pnFormOf g = .ok f) : pixelPathOf g = .ok (.tile f) := by
  simp [pixelPathOf, h, hf]

theorem pixelPathOf_error (h : g.bitmap = false) {r : Refusal} (hr : pnFormOf g = .error r) : pixelPathOf g = .error r := by
  simp [pixelPathOf, h, hr]

/-- A layer has a path in bitmap mode, and where its pattern names have a form. -/
theorem pixelPathOf_ok (h : g.bitmap = true ∨ ∃ f, pnFormOf g = .ok f) : ∃ p, pixelPathOf g = .ok p := by
  cases hb : g.bitmap
  case true => exact ⟨_, pixelPathOf_bitmap hb⟩
  case false =>
    obtain ⟨f, hf⟩ := h.resolve_left (by simp [hb])
    exact ⟨_, pixelPathOf_tile hb hf⟩

end Paths

/-- Settles O38: the path of a layer exists where a form does, and no other case is refused. -/
theorem reservedAuxModeIsRefused : Obligations.ReservedAuxModeIsRefused := by
  unfold Obligations.ReservedAuxModeIsRefused
  intro s cfg x y sx sy _
  have hform (h : cfg.patternDataSize = 2 ∨ cfg.auxMode ≤ 1) : ∃ f, pnFormOf cfg = .ok f := pnFormOf_ok (by omega)
  refine ⟨fun h => ?tile, fun ⟨hwords, haux⟩ => exec_tilePixel_error (pnFormOf_reserved hwords haux) x y, fun h => ?layer,
    fun ⟨hb, hwords, haux⟩ => ?refused⟩
  case tile =>
    obtain ⟨f, hf⟩ := hform h
    exact ⟨_, exec_tilePixel_ok hf x y⟩
  case layer =>
    obtain ⟨p, hp⟩ := pixelPathOf_ok (h.imp_right hform)
    exact ⟨_, exec_layerPixel_ok hp sx sy, (exec_rotPixel s cfg sx sy).trans (exec_layerPixel_ok hp sx sy)⟩
  case refused =>
    have hlayer := exec_layerPixel_error (s := s) (pixelPathOf_error hb (pnFormOf_reserved hwords haux)) sx sy
    exact ⟨hlayer, (exec_rotPixel s cfg sx sy).trans hlayer⟩

/-- The name that the walk of R143 finds: wrap, map index, page, pattern name. -/
theorem locatePattern_eq (c : Config) {g : LayerCfg} (h : g.wf = true) (x y : Int) :
    let planeW := g.planeW * 512
    let planeH := g.planeH * 512
    let xw := wrapCoord x (g.mapWH * planeW)
    let yw := wrapCoord y (g.mapWH * planeH)
    locatePattern c g x y = patternNameAt c g (planeBase c g (yw / planeH * g.mapWH + xw / planeW)
      + (yw % planeH / 512 * g.planeW + xw % planeW / 512) * pageSize g) (xw % 512) (yw % 512) := by
  have hw (a : Nat) : a % (g.planeW * 512) % 512 = a % 512 := Nat.mod_mod_of_dvd a (Nat.dvd_mul_left 512 _)
  have hh (a : Nat) : a % (g.planeH * 512) % 512 = a % 512 := Nat.mod_mod_of_dvd a (Nat.dvd_mul_left 512 _)
  simp only [locatePattern, pagePx_eq h, planePxW_eq h, planePxH_eq h, pageBytes_eq_pageSize h, hw, hh]

/-- Settles O32: the walk is `locatePattern`; what follows depends on the form that the record selects. -/
theorem tilePixelIsTheWalk : Obligations.TilePixelIsTheWalk := by
  unfold Obligations.TilePixelIsTheWalk
  intro s cfg x y hwf _ planeW planeH xw yw
  refine ⟨_, (locatePattern s.config cfg x y).1, (locatePattern s.config cfg x y).2.1, (locatePattern s.config cfg x y).2.2, rfl,
    ?name, ?_⟩
  case name =>
    rw [locatePattern_eq s.config hwf]
    rfl
  rcases hform : pnFormOf cfg with r | f
  case error =>
    obtain ⟨rfl, -⟩ := pnFormOf_error hform
    exact ⟨fun _ => exec_tilePixel_error hform x y, fun op hop => by simp [nameOp_of_error hwf hform] at hop⟩
  case ok =>
    rw [nameOp_of_form hwf hform]
    refine ⟨nofun, ?_⟩
    rintro op ⟨⟩
    refine ⟨_, _, answers_decodeOp s cfg _ f, rfl, ?_⟩
    rw [exec_tilePixel_ok hform, exec_fetchOp]
    rfl

/-- A coordinate moved by whole multiples of the range that it is wrapped into (R126), of either sign. -/
theorem wrapCoord_add_mul (x m : Int) (n : Nat) : wrapCoord (x + m * n) n = wrapCoord x n := by
  rw [wrapCoord, wrapCoord, Int.add_mul_emod_self_right]

/-- The pattern name is found from the wrapped coordinates alone (R126). -/
theorem locatePattern_add_maps (c : Config) {g : LayerCfg} (h : g.wf = true) (x y m n : Int) :
    locatePattern c g (x + m * (g.mapWH * g.planeW * 512 : Nat)) (y + n * (g.mapWH * g.planeH * 512 : Nat))
      = locatePattern c g x y := by
  simp only [locatePattern_eq c h, ← Nat.mul_assoc, wrapCoord_add_mul]

/-- Settles O33: both operations see their coordinates only wrapped. -/
theorem mapsAndBitmapsRepeat : Obligations.MapsAndBitmapsRepeat := by
  unfold Obligations.MapsAndBitmapsRepeat
  refine ⟨fun s cfg x y m n hwf => ?tile, fun s cfg x y m n => ?bitmap⟩
  case tile => simp only [exec, execTilePixel, tilePixelOf, tilePixelWith, locatePattern_add_maps _ hwf]
  case bitmap => simp only [exec, execBitmapPixel, bitmapPixelOf, wrapCoord_add_mul]

end Sys2Proof.Machine

/-! SUPPORT. Pixel fetch (R151 to R160): the words of video memory, the dots in them and their colour indices, as numbers. -/

namespace Sys2Proof.Machine

open Sys2Proof.Claims

/-- A word of video memory, as a number. -/
theorem vram16_eq_bigEndian (s : State) (a : Nat) :
    (vram16 s.snap a).toNat = bigEndian .vram s.vram s.config.vramBytes a 2 :=
  read16_eq_bigEndian .vram s.vram s.config.vramBytes a

/-- The four 4-bit pixels of a word, the leftmost in the top bits (R156). -/
theorem dotOf4_toNat (w : Word16) {sub : Nat} (h : sub < 4) : (dotOf4 w sub).toNat = w.toNat / 16 ^ (3 - sub) % 16 := by
  match sub, h with
  | 0, _ => exact field_toNat w 12 4
  | 1, _ => exact field_toNat w 8 4
  | 2, _ => exact field_toNat w 4 4
  | 3, _ => exact field_toNat w 0 4

/-- The two 8-bit pixels of a word, the left one in the top bits (R157). -/
theorem dotOf8_toNat (w : Word16) {sub : Nat} (h : sub < 2) : (dotOf8 w sub).toNat = w.toNat / 256 ^ (1 - sub) % 256 := by
  match sub, h with
  | 0, _ => exact field_toNat w 8 8
  | 1, _ => exact field_toNat w 0 8

/-- R153, as a sum: the dot stands below the palette address. -/
theorem indexD0_eq (pal : BitVec 7) (dot : BitVec 4) : indexD0 pal dot = pal.toNat * 16 + dot.toNat := by
  rw [indexD0, ← Nat.shiftLeft_add_eq_or_of_lt dot.isLt, Nat.shiftLeft_eq]

/-- The mask of R154 keeps the three high bits of a palette address. -/
theorem paletteGroup_eq : ∀ pal : BitVec 7, (pal.toNat &&& 0x70) <<< 4 = (pal.toNat / 16) <<< 8 := by decide

/-- R154, as a sum: the dot stands below the three high bits of the palette address. -/
theorem indexD1_eq (pal : BitVec 7) (dot : BitVec 8) : indexD1 pal dot = pal.toNat / 16 * 256 + dot.toNat := by
  rw [indexD1, paletteGroup_eq, ← Nat.shiftLeft_add_eq_or_of_lt dot.isLt, Nat.shiftLeft_eq]

/-! ## Palette pixels (R152) -/

/-- RESOLVE's form of the mode answers what the layers resolve (R91). -/
theorem answers_resolveOp (s : State) (index : Nat) (alpha : Byte) (bankSel : Nat) :
    Answers s (resolveOp s index alpha bankSel) (.pixel (resolve s.snap index alpha bankSel)) := by
  unfold resolveOp resolve
  rw [State.snap_config, State.snap_reg]
  cases cramModeOf s.config s.reg <;> rfl

/-- An operation that answers the model's palette pixel meets R152. -/
theorem palettePixel_of_answers {s : State} {cfg : LayerCfg} {dot index : Nat} {i : Instr}
    (h : Answers s i (.fetched (palettePixel s.snap cfg dot index))) : PalettePixel s cfg dot index i := by
  refine ⟨fun hclear => ?clear, fun hshown => ⟨_, answers_resolveOp s index cfg.alpha cfg.cramBankSel, ?shown⟩⟩
  case clear => rwa [palettePixel, if_pos (by simpa using hclear)] at h
  case shown => rwa [palettePixel, if_neg (by simpa using hshown)] at h

/-! ## The three palette depths (R156 to R158) -/

section PaletteDepths

variable (s : State) (cfg : LayerCfg) (pal : BitVec 7) (base px py : Nat)

/-- R151 at four pixels to a word. -/
theorem patternPixel_d0 : patternPixel .d0 cfg.patternWH base px py
    = (cellAddr cfg base 32 px py + py % 8 * 4 + px % 8 / 4 * 2, px % 8 % 4) := by
  simp only [patternPixel, packedPixel, cellBytes, cellPx, cellAddr, Prod.mk.injEq]
  omega

/-- R151 at two pixels to a word. -/
theorem patternPixel_d1 : patternPixel .d1 cfg.patternWH base px py
    = (cellAddr cfg base 64 px py + py % 8 * 8 + px % 8 / 2 * 2, px % 8 % 2) := by
  simp only [patternPixel, packedPixel, cellBytes, cellPx, cellAddr, Prod.mk.injEq]
  omega

/-- R156, at the address of R151. -/
theorem palettePixel_pixFetchD0 :
    let dot := bigEndian .vram s.vram s.config.vramBytes (cellAddr cfg base 32 px py + py % 8 * 4 + px % 8 / 4 * 2) 2
      / 16 ^ (3 - px % 8 % 4) % 16
    PalettePixel s cfg dot (pal.toNat * 16 + dot) (.pixFetchD0 cfg base pal px py) := by
  apply palettePixel_of_answers
  rw [Answers, exec, execPixFetchD0, patternPixel_d0, pixelD0, indexD0_eq, dotOf4_toNat _ (Nat.mod_lt _ (by decide)),
    vram16_eq_bigEndian]

/-- R157, at the address of R151. -/
theorem palettePixel_pixFetchD1 :
    let dot := bigEndian .vram s.vram s.config.vramBytes (cellAddr cfg base 64 px py + py % 8 * 8 + px % 8 / 2 * 2) 2
      / 256 ^ (1 - px % 8 % 2) % 256
    PalettePixel s cfg dot (pal.toNat / 16 * 256 + dot) (.pixFetchD1 cfg base pal px py) := by
  apply palettePixel_of_answers
  rw [Answers, exec, execPixFetchD1, patternPixel_d1, pixelD1, indexD1_eq, dotOf8_toNat _ (Nat.mod_lt _ (by decide)),
    vram16_eq_bigEndian]

/-- R158, at the address of R151: the dot is the index. -/
theorem palettePixel_pixFetchD2 :
    let dot := bigEndian .vram s.vram s.config.vramBytes (cellAddr cfg base 128 px py + (py % 8 * 8 + px % 8) * 2) 2 % 2048
    PalettePixel s cfg dot dot (.pixFetchD2 cfg base pal px py) := by
  intro dot
  have hdot : (pixD2OfWord (vram16 s.snap (cellAddr cfg base 128 px py + (py % 8 * 8 + px % 8) * 2))).i.toNat = dot :=
    (lowField_toNat _ 11).trans (congrArg (· % 2048) (vram16_eq_bigEndian s _))
  exact palettePixel_of_answers (hdot ▸ rfl)

end PaletteDepths

/-- Settles O34, depth by depth. -/
theorem palettePixelsAreFetched : Obligations.PalettePixelsAreFetched := by
  unfold Obligations.PalettePixelsAreFetched
  intro s cfg base px py pal _ _ _
  exact ⟨palettePixel_pixFetchD0 s cfg pal base px py, palettePixel_pixFetchD1 s cfg pal base px py,
    palettePixel_pixFetchD2 s cfg pal base px py⟩

/-! ## The two direct depths (R159, R160) -/

section DirectPixel

variable {cfg : LayerCfg} {w : Word16}

/-- With transparency enabled and bit 15 of the word clear there is no pixel (R152). -/
theorem directPixel_clear (c : Rgb) (h : cfg.transparencyEnable = true ∧ w.toNat / 2 ^ 15 = 0) :
    directPixel cfg (w.getLsbD 15) c = none := by
  obtain ⟨htrans, hclear⟩ := h
  have hbit : w.getLsbD 15 = false := Bool.toNat_eq_zero.mp ((topBit_toNat w rfl).trans hclear)
  rw [directPixel, htrans, hbit]
  rfl

/-- Otherwise the pixel is the colour with the layer's alpha (R152). -/
theorem directPixel_opaque (c : Rgb) (h : ¬(cfg.transparencyEnable = true ∧ w.toNat / 2 ^ 15 = 0)) :
    directPixel cfg (w.getLsbD 15) c = some (rgba c cfg.alpha) := by
  rw [← topBit_toNat w rfl, Bool.toNat_eq_zero] at h
  exact if_neg (by simpa using h)

end DirectPixel

/-- R159, at the address of R151. -/
theorem answers_pixFetchD3 (s : State) (cfg : LayerCfg) (base : Nat) (pal : BitVec 7) (px py : Nat) :
    let w := vram16 s.snap (cellAddr cfg base 128 px py + (py % 8 * 8 + px % 8) * 2)
    Answers s (.pixFetchD3 cfg base pal px py) (.fetched (directPixel cfg (w.getLsbD 15) (expandOne w))) := rfl

/-- R160, at the address of R151: the flag of the two words is bit 15 of the first. -/
theorem answers_pixFetchD4 (s : State) (cfg : LayerCfg) (base : Nat) (pal : BitVec 7) (px py : Nat) :
    let a := cellAddr cfg base 256 px py + (py % 8 * 8 + px % 8) * 4
    let w := vram16 s.snap a
    Answers s (.pixFetchD4 cfg base pal px py)
      (.fetched (directPixel cfg (w.getLsbD 15) (expandTwo w (vram16 s.snap (a + 2))))) := by
  intro a w
  have hsplit : pixD4OfWord (w ++ vram16 s.snap (a + 2)) = ⟨w.getLsbD 15, w, vram16 s.snap (a + 2)⟩ :=
    pixD4OfWord_wordOfPixD4 (f := ⟨_, _, _⟩) rfl
  have hpixel : pixelD4 s.snap cfg a = directPixel cfg (w.getLsbD 15) (expandTwo w (vram16 s.snap (a + 2))) := by
    rw [pixelD4, hsplit]
  exact hpixel ▸ rfl

/-- Settles O35: the two cases of R152, at depth 3 and at depth 4. -/
theorem directPixelsAreFetched : Obligations.DirectPixelsAreFetched := by
  unfold Obligations.DirectPixelsAreFetched
  intro s cfg base px py pal _ _ _ word n
  have hword (a : Nat) : word a = (vram16 s.snap a).toNat := (vram16_eq_bigEndian s a).symm
  simp only [hword]
  refine ⟨⟨fun h => ?clear3, fun h => ⟨_, ?shown3, isColour_expandOne _ cfg.alpha⟩⟩,
    ⟨fun h => ?clear4, fun h => ⟨_, _, _, rfl, rfl, rfl, ?shown4⟩⟩⟩
  case clear3 => exact directPixel_clear _ h ▸ answers_pixFetchD3 s cfg base pal px py
  case shown3 => exact directPixel_opaque _ h ▸ answers_pixFetchD3 s cfg base pal px py
  case clear4 => exact directPixel_clear _ h ▸ answers_pixFetchD4 s cfg base pal px py
  case shown4 => exact directPixel_opaque _ h ▸ answers_pixFetchD4 s cfg base pal px py

/-! ## Bitmap mode and the layer's answer (R163, R164, R178) -/

/-- A pixel of the word at `packedPixel` is one of the first row of a pattern that begins at that word. -/
theorem patternPixel_packedPixel (d : Depth) (patternWH base n : Nat) :
    patternPixel d patternWH (packedPixel d base n).1 (packedPixel d base n).2 0 = packedPixel d base n := by
  cases d <;> simp only [patternPixel, packedPixel, cellBytes, cellPx, Prod.mk.injEq, and_true] <;> omega

/-- Settles O36: BITMAP.PIXEL and PIX.FETCH read the same word of the array. -/
theorem bitmapPixelIsRowMajor : Obligations.BitmapPixelIsRowMajor := by
  unfold Obligations.BitmapPixelIsRowMajor
  intro s cfg x y _ n at_
  have hat : (cfg.bmBase + at_.1, at_.2) = packedPixel cfg.depth cfg.bmBase n := by
    unfold at_ packedPixel
    cases cfg.depth <;> rfl
  have hfetch : pixFetch s.snap cfg (cfg.bmBase + at_.1) cfg.bmPal at_.2 0 = bitmapPixelOf s.snap cfg x y := by
    have hpattern := patternPixel_packedPixel cfg.depth cfg.patternWH cfg.bmBase n
    rw [← hat] at hpattern
    rw [pixFetch, hpattern, hat]
    rfl
  refine ⟨?_, _, rfl⟩
  rw [exec_fetchOp, hfetch]
  rfl

/-- LAYER.PIXEL answers through the bitmap or the tile map, at the layer's source coordinate (R164). -/
theorem exec_layerPixel (s : State) (cfg : LayerCfg) (sx sy : Nat) :
    exec (.layerPixel cfg sx sy) s
      = exec (if cfg.bitmap then .bitmapPixel cfg (sourceCoord cfg sx sy).1 (sourceCoord cfg sx sy).2
          else .tilePixel cfg (sourceCoord cfg sx sy).1 (sourceCoord cfg sx sy).2) s := by
  cases hb : cfg.bitmap
  case true =>
    rw [exec_layerPixel_ok (pixelPathOf_bitmap hb)]
    rfl
  case false =>
    rcases hform : pnFormOf cfg with r | f
    case error => exact (exec_layerPixel_error (pixelPathOf_error hb hform) sx sy).trans (exec_tilePixel_error hform _ _).symm
    case ok => exact (exec_layerPixel_ok (pixelPathOf_tile hb hform) sx sy).trans (exec_tilePixel_ok hform _ _).symm

/-- Settles O37: the layer's generator is the one that its record's rotation part selects (R26). -/
theorem layerPixelDispatches : Obligations.LayerPixelDispatches := by
  unfold Obligations.LayerPixelDispatches
  intro s cfg sx sy hwf
  have hrot := LayerCfg.wf_rot hwf
  refine ⟨(sourceCoord cfg sx sy).1, (sourceCoord cfg sx sy).2, fun hscroll => ?scroll, fun hlayer => ?rotation,
    exec_layerPixel s cfg sx sy, exec_rotPixel s cfg sx sy⟩
  case scroll =>
    have hnone : cfg.rot = none := Option.not_isSome_iff_eq_none.mp (fun h => hscroll (hrot.mp h))
    rw [sourceCoord, hnone]
    rfl
  case rotation =>
    obtain ⟨r, hsome⟩ := Option.isSome_iff_exists.mp (hrot.mpr hlayer)
    refine ⟨r, hsome, ?_⟩
    rw [sourceCoord, hsome]
    rfl

end Sys2Proof.Machine

/-! SUPPORT. The rotation engine (R171 to R177): the table's address and its entries as plain arithmetic, and the
truncation of R6. -/

namespace Sys2Proof.Machine

open Sys2Proof.Claims

/-! ## The table's address (R171) -/

/-- The bits of a byte that the mask of R171 selects, as a number. -/
theorem byte_and_tableMask : ∀ b : Byte, b.toNat &&& 0x83 = b.toNat / 128 * 128 + b.toNat % 4 := by decide

/-- Taking the bits of the mask 0x83 away clears bit 7 and bits 1:0. -/
theorem sub_and_tableMask (a : Nat) : a - (a &&& 0x83) = a / 256 * 256 + a % 128 / 4 * 4 := by
  have hlow : a &&& 0x83 = (BitVec.ofNat 8 a).toNat &&& 0x83 := by
    rw [BitVec.toNat_ofNat, ← Nat.and_two_pow_sub_one_eq_mod a 8, Nat.and_assoc]
    rfl
  rw [hlow, byte_and_tableMask, BitVec.toNat_ofNat]
  omega

/-- A whole register, as its sixteen bits. -/
theorem regBits_whole (reg : Bank) (off : Nat) : regBits reg off 0 16 = (regGet reg off).toNat := by
  rw [regBits, pow_zero, Nat.div_one, Nat.mod_eq_of_lt (regGet reg off).isLt]

/-- Settles O39: RPTA is a long-word at 0x0BC (R23), and the mask clears the bits of the address. -/
theorem rotAddrClearsTheTableBits : Obligations.RotAddrClearsTheTableBits := by
  unfold Obligations.RotAddrClearsTheTableBits
  intro s hc a
  have ha : ((regLong s.reg 0x0BC).toNat <<< 1) % 0x80000 = a := by
    rw [regLong_toNat, Nat.shiftLeft_eq, ← regBits_whole, ← regBits_whole]
  have haddr : rotTableAddr s.config s.reg = a - (a &&& 0x83) := by
    rw [hc, ← ha]
    rfl
  rw [Answers, exec, execRotAddr, haddr, sub_and_tableMask]

/-! ## The table's entries (R172) -/

/-- The low `n` bits of a number, as the two's-complement number they hold. -/
theorem sextN_eq_signed (n v : Nat) : sextN n v = signed n v := by
  rw [sextN, BitVec.toInt_eq_toNat_cond, signed, BitVec.toNat_ofNat]
  cases n with
  | zero => rw [pow_zero, Nat.mod_one]
  | succ k =>
    rw [Nat.add_sub_cancel, pow_succ]
    split <;> split <;> omega

/-- Clearing the bits below `low` and ignoring those from `n` on can be done in either order. -/
theorem clearLow_mod (x low n : Nat) : x >>> low <<< low % 2 ^ n = x % 2 ^ n / 2 ^ low * 2 ^ low := by
  rw [← Nat.shiftRight_eq_div_pow, ← Nat.shiftLeft_eq]
  apply Nat.eq_of_testBit_eq
  intro i
  simp only [Nat.testBit_mod_two_pow, Nat.testBit_shiftLeft, Nat.testBit_shiftRight]
  by_cases h : low ≤ i
  · rw [Nat.add_sub_cancel' h]
    exact Bool.and_left_comm _ _ _
  · simp [h]

/-- The bytes of one entry (R172). -/
def entryBytes : EntrySize → Nat
  | .two => 2
  | .four => 4

/-- The raw value of an entry, as a number (R41). -/
theorem rotRaw_eq_bigEndian (s : State) (t : Nat) (e : RotEntry) :
    rotRaw s.snap t e = bigEndian .vram s.vram s.config.vramBytes (t + e.off) (entryBytes e.size) := by
  unfold rotRaw
  cases e.size with
  | two => exact vram16_eq_bigEndian s _
  | four => exact read32_eq_bigEndian .vram s.vram s.config.vramBytes _

/-- R172, for an entry of any layout. -/
theorem rotValue_eq_tableEntry (s : State) (t : Nat) (e : RotEntry) :
    rotValue s.snap t e = tableEntry s t e.off (entryBytes e.size) e.top e.low e.frac := by
  have hsigned (raw : Nat) : sextN (e.top + 1) (raw >>> e.low <<< e.low)
      = signed (e.top + 1) (raw % 2 ^ (e.top + 1) / 2 ^ e.low * 2 ^ e.low) := by
    rw [sextN_eq_signed, ← clearLow_mod, signed, signed, Nat.mod_mod]
  rw [rotValue, fixPoint, rotRaw_eq_bigEndian, hsigned, Rat.mkRat_eq_div, tableEntry, Nat.cast_pow, Nat.cast_ofNat]

/-- Settles O40: the entries are those of the default layout, at the address that ROT.ADDR answers. -/
theorem rotLoadReadsTheTable : Obligations.RotLoadReadsTheTable := by
  unfold Obligations.RotLoadReadsTheTable
  intro s hc
  have hlayout : s.config.rotLayout = defaultRotLayout := congrArg Config.rotLayout hc
  refine ⟨_, _, rfl, rfl, ?_⟩
  simp only [rotLoadTable, State.snap_config, State.snap_reg, hlayout, rotValue_eq_tableEntry, defaultRotLayout, rotEntry16,
    rotEntryInt, rotEntryScale, entryBytes, and_self]

/-! ## The source coordinate (R175) -/

/-- Rounding toward zero is rounding down where the number is not negative. -/
theorem truncRat_of_nonneg {q : Rat} (h : 0 ≤ q) : truncRat q = ⌊q⌋ := by
  rw [truncRat, Int.tdiv_eq_ediv_of_nonneg (Rat.num_nonneg.mpr h), Rat.floor_def']

theorem truncRat_neg (q : Rat) : truncRat (-q) = -truncRat q := Int.neg_tdiv q.num q.den

/-- Rounding toward zero is rounding up where the number is not positive. -/
theorem truncRat_of_nonpos {q : Rat} (h : q ≤ 0) : truncRat q = ⌈q⌉ := by
  rw [← neg_neg q, truncRat_neg, truncRat_of_nonneg (neg_nonneg.mpr h), Int.ceil_neg]

@[simp] theorem truncRat_intCast (n : Int) : truncRat n = n := Int.tdiv_one n

/-- R6: the model's rounding is toward zero. -/
theorem isTrunc_truncRat (q : Rat) : IsTrunc q (truncRat q) := by
  refine ⟨fun h => ?nonneg, fun h => ?nonpos⟩
  case nonneg =>
    rw [truncRat_of_nonneg h]
    exact ⟨Int.floor_le q, Int.lt_floor_add_one q⟩
  case nonpos =>
    rw [truncRat_of_nonpos h]
    exact ⟨Int.le_ceil q, sub_lt_iff_lt_add.mpr (Int.ceil_lt_add_one q)⟩

/-- Settles O41: the model computes the formula of R175 exactly and rounds each coordinate once. -/
theorem rotCoordTruncatesTheExactFormula : Obligations.RotCoordTruncatesTheExactFormula := by
  unfold Obligations.RotCoordTruncatesTheExactFormula
  intro s r h v
  exact ⟨_, _, rfl, isTrunc_truncRat (rotX r h v), isTrunc_truncRat (rotY r h v)⟩

/-- Settles O42: under the identity parameters the formula is the position itself, an integer, and Mx and My stand in
no part of it. -/
theorem rotIdentityIsTheScreenPosition : Obligations.RotIdentityIsTheScreenPosition := by
  unfold Obligations.RotIdentityIsTheScreenPosition
  intro s r h v hA hE hB hC hD hF hkx hky hdX hdY hdXst hdYst hxst hyst hzst hpx hpy hpz hcx hcy hcz
  have hX : rotX r h v = h := by
    simp [rotX, hA, hB, hC, hkx, hdX, hdY, hdXst, hdYst, hxst, hyst, hzst, hpx, hpy, hpz, hcx, hcy, hcz]
  have hY : rotY r h v = v := by
    simp [rotY, hD, hE, hF, hky, hdX, hdY, hdXst, hdYst, hxst, hyst, hzst, hpx, hpy, hpz, hcx, hcy, hcz]
  rw [Answers, exec, execRotCoord, rotCoordOf, hX, hY, truncRat_intCast, truncRat_intCast]

end Sys2Proof.Machine

/-! SUPPORT. Priorities, ranks and the draw order (R185 to R190), and the two pixel operations of the compositor (R194, R196). -/

namespace Sys2Proof.Machine

open Sys2Proof.Claims

/-! ## Layer indices (R185) -/

@[simp] theorem layerOfIndex_indexOf (l : Layer) : layerOfIndex (indexOf l) = some l := by
  rcases l with (_ | _ | _ | _ | _) | _ <;> rfl

theorem indexOf_injective : Function.Injective indexOf := fun l m h =>
  Option.some.inj ((layerOfIndex_indexOf l).symm.trans ((congrArg layerOfIndex h).trans (layerOfIndex_indexOf m)))

/-- An operation on the index of a layer is the operation on that layer. -/
theorem withLayer_indexOf (l : Layer) (op : Layer → Result) : withLayer (indexOf l) op = op l := by
  rw [withLayer, layerOfIndex_indexOf]

/-- R222, cause 2: an index above 5 names no layer. -/
theorem withLayer_bad {index : Nat} (h : 5 < index) (op : Layer → Result) :
    withLayer index op = .fault (.badLayerIndex index) := by
  obtain ⟨k, rfl⟩ := Nat.exists_eq_add_of_le' h
  rfl

/-! ## Priorities and ranks (R188, R189) -/

theorem indexOf_bg (b : Bg) : indexOf (.bg b) = bgRank b := by cases b <;> rfl

/-- R188, R189: GET.PRI and INNER.PRI at the index of a layer. -/
theorem answersPriority_indexOf {s : State} {l : Layer} (hle : priorityOf s.config s.reg s.sprite l ≤ 7)
    (hrank : innerRankOf s.config l = indexOf l) :
    AnswersPriority s (indexOf l) (priorityOf s.config s.reg s.sprite l) :=
  ⟨withLayer_indexOf l _, hle, (withLayer_indexOf l _).trans (by rw [hrank])⟩

/-- A background layer's priority field lies at the position of R24 for its index. -/
theorem answersPriority_bg {s : State} (hc : s.config = Config.default) (b : Bg) :
    AnswersPriority s (bgRank b) (regBits s.reg (0x0F8 + 2 * (bgRank b / 2)) (8 * (bgRank b % 2)) 3) := by
  have hpri : priorityOf s.config s.reg s.sprite (.bg b)
      = regBits s.reg (0x0F8 + 2 * (bgRank b / 2)) (8 * (bgRank b % 2)) 3 := by
    rw [hc]
    exact fld_default s.reg b LayerFields.pri
  rw [← hpri, ← indexOf_bg]
  exact answersPriority_indexOf (hpri ▸ Nat.le_of_lt_succ (regBits_lt _ _ _ _)) (indexOf_bg b).symm

/-- Settles O43: each entry by its index, and no entry above index 5. -/
theorem prioritiesAndRanksByIndex : Obligations.PrioritiesAndRanksByIndex := by
  unfold Obligations.PrioritiesAndRanksByIndex
  refine ⟨fun s hc => ?entries, fun s index h => ⟨withLayer_bad h _, withLayer_bad h _, withLayer_bad h _⟩⟩
  case entries =>
    have hsprite : AnswersPriority s 5 s.sprite.priority.toNat :=
      answersPriority_indexOf (l := .sprite) (Nat.le_of_lt_succ s.sprite.priority.isLt) (by rw [hc]; rfl)
    exact ⟨answersPriority_bg hc .nbg0, answersPriority_bg hc .nbg1, answersPriority_bg hc .nbg2, answersPriority_bg hc .nbg3,
      answersPriority_bg hc .rbg0, hsprite⟩

/-! ## The draw order (R190) -/

/-- R189: the ranks of the background layers are their indices, and the sprite layer's is above them. -/
theorem innerRankOf_injective {c : Config} (hc : c.wf = true) : Function.Injective (innerRankOf c) := by
  have hsprite : 5 ≤ c.innerRankSprite := by
    simp only [Config.wf, Bool.and_eq_true, decide_eq_true_eq] at hc
    obtain ⟨-, h⟩ := hc
    exact h
  have hne (b : Bg) : bgRank b ≠ c.innerRankSprite := by
    have := bgRank_le b
    omega
  rintro (b | _) (b' | _) h
  · exact indexOf_injective ((indexOf_bg b).trans (h.trans (indexOf_bg b').symm))
  · exact absurd h (hne b)
  · exact absurd h.symm (hne b')
  · rfl

theorem mem_allLayers (l : Layer) : l ∈ allLayers := by rcases l with (_ | _ | _ | _ | _) | _ <;> decide

section Order

variable (s : State)

theorem drawnBefore_iff {l m : Layer} : drawnBefore s.config s.reg s.sprite l m = true
    ↔ priorityOf s.config s.reg s.sprite l < priorityOf s.config s.reg s.sprite m
      ∨ priorityOf s.config s.reg s.sprite l = priorityOf s.config s.reg s.sprite m
        ∧ innerRankOf s.config l ≤ innerRankOf s.config m := by
  simp [drawnBefore]

theorem drawnBefore_total (l m : Layer) :
    drawnBefore s.config s.reg s.sprite l m = true ∨ drawnBefore s.config s.reg s.sprite m l = true := by
  rw [drawnBefore_iff, drawnBefore_iff]
  omega

theorem drawnBefore_trans (l m n : Layer) : drawnBefore s.config s.reg s.sprite l m = true →
    drawnBefore s.config s.reg s.sprite m n = true → drawnBefore s.config s.reg s.sprite l n = true := by
  rw [drawnBefore_iff, drawnBefore_iff, drawnBefore_iff]
  omega

variable {s}

/-- No two layers are each below the other. -/
theorem below_asymm {l m : Layer} (h : Below s l m) : ¬Below s m l := by
  unfold Below at h ⊢
  omega

/-- Different layers have different ranks, so the order of the sort is strict on them. -/
theorem below_of_drawnBefore (hc : s.config.wf = true) {l m : Layer} (h : drawnBefore s.config s.reg s.sprite l m = true)
    (hne : l ≠ m) : Below s l m := by
  have hrank : innerRankOf s.config l ≠ innerRankOf s.config m := (innerRankOf_injective hc).ne hne
  rw [drawnBefore_iff] at h
  unfold Below
  omega

/-- The sorted list of the layers kept is a draw order. -/
theorem isDrawOrder_drawOrder (hc : s.config.wf = true) : IsDrawOrder s (drawOrder s.config s.reg s.sprite) := by
  have hperm := sortLayers_perm (drawnBefore s.config s.reg s.sprite) (allLayers.filter (layerKept s.config s.reg s.sprite))
  have hnodup : (drawOrder s.config s.reg s.sprite).Nodup := hperm.nodup_iff.mpr (.filter _ (by decide))
  have hsorted := sortLayers_sorted (drawnBefore_total s) (drawnBefore_trans s)
    (allLayers.filter (layerKept s.config s.reg s.sprite))
  refine ⟨hnodup, fun l => ?members, (hsorted.and hnodup).imp fun ⟨hle, hne⟩ => below_of_drawnBefore hc hle hne⟩
  case members =>
    rw [drawOrder, hperm.mem_iff]
    simp [mem_allLayers, layerKept]

/-- There is one draw order: the same layers, in a strict order. -/
theorem isDrawOrder_unique {ls ls' : List Layer} (h : IsDrawOrder s ls) (h' : IsDrawOrder s ls') : ls' = ls := by
  obtain ⟨hnodup, hmem, hsorted⟩ := h
  obtain ⟨hnodup', hmem', hsorted'⟩ := h'
  have hperm : ls'.Perm ls := (List.perm_ext_iff_of_nodup hnodup' hnodup).mpr fun l => (hmem' l).trans (hmem l).symm
  exact hperm.eq_of_pairwise (fun _ _ _ _ hlm hml => (below_asymm hlm hml).elim) hsorted' hsorted

end Order

/-- Settles O44: the model's sort is a draw order, and there is one. -/
theorem sortAnswersTheDrawOrder : Obligations.SortAnswersTheDrawOrder := by
  unfold Obligations.SortAnswersTheDrawOrder
  intro s hc
  have horder := isDrawOrder_drawOrder hc
  exact ⟨_, rfl, horder, fun _ h => isDrawOrder_unique horder h⟩

/-! ## COLOFS and BLEND (R194, R196) -/

/-- R6: the clamp, as a number. -/
theorem clampChannel_toNat (x : Int) : ((clampChannel x).toNat : Int) = max 0 (min 255 x) := by
  unfold clampChannel
  split
  · change (0 : Int) = _
    omega
  · split
    · change (255 : Int) = _
      omega
    · rw [BitVec.toNat_ofNat]
      omega

/-- Settles O45: the clamp of each channel's sum. -/
theorem colofsSaturates : Obligations.ColofsSaturates := by
  unfold Obligations.ColofsSaturates
  exact fun s p cr cg cb => ⟨_, rfl, clampChannel_toNat _, clampChannel_toNat _, clampChannel_toNat _, rfl⟩

/-- Law B1: an opaque source covers. -/
theorem blendPixel_opaque (dst : Pixel) {src : Pixel} (h : src.a = 0xFF#8) : blendPixel dst src = src := if_pos h

/-- Settles O46: law B1, and an answer that no state enters (B2). -/
theorem blendCoversWhenOpaque : Obligations.BlendCoversWhenOpaque := by
  unfold Obligations.BlendCoversWhenOpaque
  refine fun dst src => ⟨fun s h => ?covers, blendPixel dst src, fun _ => rfl⟩
  case covers =>
    rw [Answers, exec, execBlend, blendPixel_opaque dst h]

end Sys2Proof.Machine

/-! SUPPORT. LAYER.DRAW and DRAWFRAME (R197, R198): when a layer is refused, what it shows at a position, and what a list of layers
drawn one over the other leaves there. -/

namespace Sys2Proof.Machine

open Sys2Proof.Claims

/-! ## Which layers are refused (R224) -/

theorem depthOf_ok_iff {n : Nat} : (∃ d, depthOf n = .ok d) ↔ n ≤ 4 := by
  refine ⟨fun ⟨d, hd⟩ => ?_, depthOf_ok⟩
  by_contra h
  rw [depthOf_reserved (by omega)] at hd
  cases hd

/-- LAYER.INIT derives a record exactly where CHCN names a depth. -/
theorem layerInitOf_ok_iff {v : Snap} {b : Bg} {g : LayerCfg} : layerInitOf v b = .ok g
    ↔ ∃ d, depthOf (fld v.reg (layerFields v.config b).chcn) = .ok d ∧ g = layerRecord v b d := by
  unfold layerInitOf
  cases depthOf (fld v.reg (layerFields v.config b).chcn) <;> simp [eq_comm]

/-- A layer has a path in bitmap mode, with two-word pattern names, and where auxMode is not reserved (R138). -/
theorem pixelPathOf_ok_iff {g : LayerCfg} :
    (∃ p, pixelPathOf g = .ok p) ↔ g.bitmap = true ∨ g.patternDataSize ≠ 1 ∨ g.auxMode ≤ 1 := by
  refine ⟨fun ⟨p, hp⟩ => ?_, fun h => pixelPathOf_ok (h.imp_right pnFormOf_ok)⟩
  by_contra! h
  obtain ⟨hb, hwords, haux⟩ := h
  rw [pixelPathOf_error (Bool.eq_false_iff.mpr hb) (pnFormOf_reserved hwords haux)] at hp
  cases hp

/-- A background layer draws the pixels of its record along its path. -/
theorem layerSource_bg_ok_iff {v : Snap} {port : SpritePort} {b : Bg} {src : Nat → Nat → Option Pixel} :
    layerSource v port (.bg b) = .ok src
      ↔ ∃ g p, layerInitOf v b = .ok g ∧ pixelPathOf g = .ok p ∧ src = shadedPixel v g p := by
  cases hg : layerInitOf v b with
  | error r => simp [layerSource, hg]
  | ok g => cases hp : pixelPathOf g <;> simp [layerSource, hg, hp, eq_comm (b := src)]

/-- R224: a layer has pixels to draw exactly where its registers select no reserved mode. -/
theorem layerDrawable_iff {v : Snap} {port : SpritePort} {l : Layer} :
    layerDrawable v.config v.reg l = true ↔ ∃ src, layerSource v port l = .ok src := by
  rcases l with b | _
  case sprite => exact ⟨fun _ => ⟨_, rfl⟩, fun _ => rfl⟩
  case bg =>
    have hpath (d : Depth) : (∃ p, pixelPathOf (layerRecord v b d) = .ok p)
        ↔ (bgBitmapCapable b = true ∧ fldOpt v.reg (layerFields v.config b).bmen = 1)
          ∨ fld v.reg (layerFields v.config b).pnb ≠ 1 ∨ fld v.reg (layerFields v.config b).cnsm ≤ 1 := by
      rw [pixelPathOf_ok_iff]
      simp [layerRecord]
    simp only [layerDrawable, Bool.and_eq_true, Bool.or_eq_true, decide_eq_true_eq, beq_iff_eq, bne_iff_ne, or_assoc]
    rw [← depthOf_ok_iff]
    refine ⟨fun ⟨⟨d, hd⟩, hmode⟩ => ?source, fun ⟨src, hsrc⟩ => ?drawable⟩
    case source =>
      obtain ⟨p, hp⟩ := (hpath d).mpr hmode
      exact ⟨_, layerSource_bg_ok_iff.mpr ⟨_, p, layerInitOf_ok_iff.mpr ⟨d, hd, rfl⟩, hp, rfl⟩⟩
    case drawable =>
      obtain ⟨g, p, hg, hp, -⟩ := layerSource_bg_ok_iff.mp hsrc
      obtain ⟨d, hd, rfl⟩ := layerInitOf_ok_iff.mp hg
      exact ⟨⟨d, hd⟩, (hpath d).mp ⟨p, hp⟩⟩

/-! ## What a layer shows (R197) -/

/-- An operation leaves one answer in the log, so it has only one. -/
theorem reply_inj {s : State} {v w : Answer} : s.reply v = s.reply w ↔ v = w := by
  simp [State.reply]

theorem answers_layerInit_iff {s : State} {b : Bg} {g : LayerCfg} :
    Answers s (.layerInit b) (.layerCfg g) ↔ layerInitOf s.snap b = .ok g := by
  unfold Answers
  simp only [exec, execLayerInit]
  cases layerInitOf s.snap b <;> simp [refuse, reply_inj]

theorem answers_layerPixel_iff {s : State} {g : LayerCfg} {x y : Nat} {q : Option Pixel} :
    Answers s (.layerPixel g x y) (.fetched q) ↔ ∃ p, pixelPathOf g = .ok p ∧ q = layerPixelWith s.snap g p x y := by
  unfold Answers
  cases hp : pixelPathOf g with
  | error r => simp [exec_layerPixel_error hp]
  | ok p => simp [exec_layerPixel_ok hp, reply_inj, eq_comm]

theorem answers_colofs_iff {s : State} {p q : Pixel} {o : ColorOffset} :
    Answers s (.colofs p o.r o.g o.b) (.pixel q) ↔ q = offsetPixel p o := by
  unfold Answers
  simp [exec, execColofs, reply_inj, eq_comm]

theorem answers_sort_iff {s : State} {ls : List Layer} :
    Answers s .sort (.order ls) ↔ ls = drawOrder s.config s.reg s.sprite := by
  unfold Answers
  simp [exec, execSort, reply_inj, eq_comm]

/-- What a layer shows at a position is what the model draws there; for a refused layer no value of `q` is shown. -/
theorem shows_iff {s : State} {l : Layer} {x y : Nat} {q : Option Pixel} :
    Shows s l x y q ↔ ∃ src, layerSource s.snap s.sprite l = .ok src ∧ q = src x y := by
  rcases l with b | _
  case sprite => simp [Shows, layerSource, spritePixelAt]
  case bg =>
    simp only [Shows, answers_layerInit_iff, answers_layerPixel_iff, answers_colofs_iff, layerSource_bg_ok_iff]
    constructor
    · rintro ⟨g, hg, ⟨rfl, p, hp, hq⟩ | ⟨c, _, ⟨p, hp, hq⟩, rfl, rfl⟩⟩
      all_goals exact ⟨_, ⟨g, p, hg, hp, rfl⟩, by simp [shadedPixel, ← hq]⟩
    · rintro ⟨_, ⟨g, p, hg, hp, rfl⟩, rfl⟩
      refine ⟨g, hg, ?_⟩
      cases hq : layerPixelWith s.snap g p x y with
      | none => exact .inl ⟨by simp [shadedPixel, hq], p, hp, hq.symm⟩
      | some c => exact .inr ⟨c, _, ⟨p, hp, hq.symm⟩, rfl, by simp [shadedPixel, hq]⟩

/-- The surface after one layer, at a position where the layer shows `q` (R197). -/
theorem surfaceAt_drawLayer {s : State} {l : Layer} {sf sf' : Surface} (hd : drawLayer s.snap s.sprite l sf = .ok sf')
    {x y : Nat} (hx : x < sf.w) (hy : y < sf.h) {q : Option Pixel} (hq : Shows s l x y q) :
    surfaceAt sf' x y = paintPixel (surfaceAt sf x y) q := by
  obtain ⟨src, hsrc, rfl⟩ := shows_iff.mp hq
  simp only [drawLayer, hsrc, Except.ok.injEq] at hd
  rw [← hd, paintSurface_at src hx hy]

/-! ## The operations that draw -/

/-- The end of an operation that draws: the state with the new surface, or the refusal. -/
def drawOutcome (s : State) : Except Refusal Surface → Result
  | .ok sf => .next (s.setSurface sf)
  | .error r => .refused r

/-- Drawing replaces the whole surface. -/
@[simp] theorem drawOutcome_setSurface (s : State) (sf : Surface) : drawOutcome (s.setSurface sf) = drawOutcome s := by
  funext x
  cases x <;> rfl

theorem exec_layerDraw_indexOf (s : State) (l : Layer) :
    exec (.layerDraw (indexOf l)) s = drawOutcome s (drawLayer s.snap s.sprite l s.surface) := by
  rw [exec, execLayerDraw, withLayer_indexOf]
  cases drawLayer s.snap s.sprite l s.surface <;> rfl

theorem exec_drawframe (s : State) : exec .drawframe s = drawOutcome s (drawFrame s.snap s.sprite) := by
  cases h : drawFrame s.snap s.sprite with
  | ok sf => exact exec_drawframe_ok h
  | error r => exact exec_drawframe_error h

theorem exec_drawframe_next {s t : State} :
    exec .drawframe s = .next t ↔ ∃ sf, drawFrame s.snap s.sprite = .ok sf ∧ t = s.setSurface sf := by
  rw [exec_drawframe]
  cases drawFrame s.snap s.sprite <;> simp [drawOutcome, eq_comm]

/-- Settles O47: a layer that is not refused has pixels to draw, and each position is painted with what it shows there. -/
theorem layerDrawBlendsEachPixel : Obligations.LayerDrawBlendsEachPixel := by
  unfold Obligations.LayerDrawBlendsEachPixel
  intro s l
  have hdrawable := layerDrawable_iff (v := s.snap) (port := s.sprite) (l := l)
  rw [exec_layerDraw_indexOf]
  refine ⟨fun h => ?drawn, fun h => ?refused⟩
  case drawn =>
    obtain ⟨src, hsrc⟩ := hdrawable.mp h
    have hd : drawLayer s.snap s.sprite l s.surface = .ok (paintSurface s.surface src) := by rw [drawLayer, hsrc]
    refine ⟨paintSurface s.surface src, by rw [hd, drawOutcome], rfl, rfl, fun x y hx hy => ?_⟩
    have hq : Shows s l x y (src x y) := shows_iff.mpr ⟨src, hsrc, rfl⟩
    rw [surfaceAt_drawLayer hd hx hy hq]
    exact ⟨_, hq, fun hnone => by rw [hnone, paintPixel], fun p hsome => by rw [hsome]; rfl⟩
  case refused =>
    cases hsrc : layerSource s.snap s.sprite l with
    | ok src => cases h.symm.trans (hdrawable.mpr ⟨src, hsrc⟩)
    | error r => exact ⟨r, by rw [drawLayer, hsrc, drawOutcome]⟩

/-! ## Several layers (R198) -/

/-- The layers of a list, drawn by one operation each, are drawn as DRAWFRAME draws them. -/
theorem execAll_layerDraw (s : State) (ls : List Layer) :
    execAll (ls.map (fun l => .layerDraw (indexOf l))) s = drawOutcome s (drawLayers s.snap s.sprite ls s.surface) := by
  induction ls generalizing s with
  | nil => rfl
  | cons l rest ih =>
    rw [List.map_cons, execAll, exec_layerDraw_indexOf, drawLayers]
    cases drawLayer s.snap s.sprite l s.surface with
    | error r => rfl
    | ok sf => exact (ih (s.setSurface sf)).trans (by rw [drawOutcome_setSurface]; rfl)

theorem drawFrame_on {s : State} (h : fld s.reg s.config.regmap.disp = 1) : drawFrame s.snap s.sprite
    = drawLayers s.snap s.sprite (drawOrder s.config s.reg s.sprite) (clearedSurface s.snap) :=
  if_pos (beq_iff_eq.mpr h)

theorem drawFrame_off {s : State} (h : fld s.reg s.config.regmap.disp ≠ 1) :
    drawFrame s.snap s.sprite = .ok (clearedSurface s.snap) :=
  if_neg (mt beq_iff_eq.mp h)

/-- Settles O48: the same layers drawn into the same cleared surface. -/
theorem drawframeClearsThenDrawsInOrder : Obligations.DrawframeClearsThenDrawsInOrder := by
  unfold Obligations.DrawframeClearsThenDrawsInOrder
  intro s
  refine ⟨drawOrder s.config s.reg s.sprite, clearedSurface s.snap, rfl, rfl, fun x y hx hy => surfaceAt_buildSurface _ hx hy,
    fun hon => ?on, fun hoff => ?off⟩
  case on =>
    rw [exec_drawframe, drawFrame_on hon, execAll_layerDraw, drawOutcome_setSurface]
    rfl
  case off => rw [exec_drawframe, drawFrame_off hoff, drawOutcome]

theorem drawLayers_cons_ok {v : Snap} {port : SpritePort} {l : Layer} {rest : List Layer} {sf sf' : Surface} :
    drawLayers v port (l :: rest) sf = .ok sf'
      ↔ ∃ mid, drawLayer v port l sf = .ok mid ∧ drawLayers v port rest mid = .ok sf' := by
  cases h : drawLayer v port l sf <;> simp [drawLayers, h]

/-- Layers drawn in two parts. -/
theorem drawLayers_append_ok {v : Snap} {port : SpritePort} {below above : List Layer} {sf sf' : Surface} :
    drawLayers v port (below ++ above) sf = .ok sf'
      ↔ ∃ mid, drawLayers v port below sf = .ok mid ∧ drawLayers v port above mid = .ok sf' := by
  induction below generalizing sf with
  | nil => simp [drawLayers]
  | cons l rest ih =>
    simp only [List.cons_append, drawLayers_cons_ok, ih]
    exact ⟨fun ⟨mid1, h1, mid, h2, h3⟩ => ⟨mid, ⟨mid1, h1, h2⟩, h3⟩,
      fun ⟨mid, ⟨mid1, h1, h2⟩, h3⟩ => ⟨mid1, h1, mid, h2, h3⟩⟩

/-- Layers that show nothing at a position leave it as it is (R197). -/
theorem surfaceAt_drawLayers_none {s : State} {ls : List Layer} {sf sf' : Surface}
    (hd : drawLayers s.snap s.sprite ls sf = .ok sf') {x y : Nat} (hx : x < sf.w) (hy : y < sf.h)
    (hnone : ∀ l ∈ ls, Shows s l x y none) : surfaceAt sf' x y = surfaceAt sf x y := by
  induction ls generalizing sf with
  | nil =>
    cases hd
    rfl
  | cons l rest ih =>
    obtain ⟨hl, hrest⟩ := List.forall_mem_cons.mp hnone
    obtain ⟨sf1, h1, hd⟩ := drawLayers_cons_ok.mp hd
    obtain ⟨hw, hh, -⟩ := drawLayer_ok h1
    rw [ih hd (hw ▸ hx) (hh ▸ hy) hrest, surfaceAt_drawLayer h1 hx hy hl, paintPixel]

/-- An opaque pixel under layers that show nothing there is what the surface holds, whatever was drawn below (R193, R196). -/
theorem surfaceAt_drawLayers_topmost {s : State} {below above : List Layer} {l : Layer} {sf sf' : Surface} (hsf : sf.wf)
    (hd : drawLayers s.snap s.sprite (below ++ l :: above) sf = .ok sf') {x y : Nat} (hx : x < sf.w) (hy : y < sf.h) {p : Pixel}
    (hl : Shows s l x y (some p)) (hp : p.a = 0xFF#8) (hnone : ∀ m ∈ above, Shows s m x y none) : surfaceAt sf' x y = p := by
  obtain ⟨sf1, hbelow, hd⟩ := drawLayers_append_ok.mp hd
  obtain ⟨sf2, hdraw, habove⟩ := drawLayers_cons_ok.mp hd
  obtain ⟨hw1, hh1, -⟩ := drawLayers_ok hsf hbelow
  obtain ⟨hw2, hh2, -⟩ := drawLayer_ok hdraw
  have hx1 : x < sf1.w := hw1 ▸ hx
  have hy1 : y < sf1.h := hh1 ▸ hy
  rw [surfaceAt_drawLayers_none habove (hw2 ▸ hx1) (hh2 ▸ hy1) hnone, surfaceAt_drawLayer hdraw hx1 hy1 hl, paintPixel,
    blendPixel_opaque _ hp]

/-- Settles O49: the frame is the layers of SORT drawn over the cleared surface. -/
theorem topmostOpaquePixelWins : Obligations.TopmostOpaquePixelWins := by
  unfold Obligations.TopmostOpaquePixelWins
  intro s t ls x y hon hsort hframe hx hy
  have hls : ls = drawOrder s.config s.reg s.sprite := answers_sort_iff.mp hsort
  obtain ⟨sf, hd, rfl⟩ := exec_drawframe_next.mp hframe
  rw [drawFrame_on hon, ← hls] at hd
  have hcleared : (clearedSurface s.snap).wf := buildSurface_wf _ _ _
  obtain ⟨hw, hh, -⟩ := drawLayers_ok hcleared hd
  have hx0 : x < (clearedSurface s.snap).w := hw ▸ hx
  have hy0 : y < (clearedSurface s.snap).h := hh ▸ hy
  refine ⟨fun below l above p hsplit hl hp hnone => ?topmost, fun hnone => ?cleared⟩
  case topmost => exact surfaceAt_drawLayers_topmost hcleared (hsplit ▸ hd) hx0 hy0 hl hp hnone
  case cleared => exact (surfaceAt_drawLayers_none hd hx0 hy0 hnone).trans (surfaceAt_buildSurface _ hx0 hy0)

end Sys2Proof.Machine

/-! SUPPORT. Presented frames (R199, R209, R246): what each operation appends to the outputs. -/

namespace Sys2Proof.Machine

open Sys2Proof.Claims

/-- VBOUT and PRESENT are the operations that present a frame (R199, R209). -/
theorem presents_iff {i : Instr} : presents i = true ↔ i = .vbout ∨ i = .present := by
  refine ⟨fun h => ?_, ?_⟩
  · cases i
    case vbout => exact .inl rfl
    case present => exact .inr rfl
    all_goals cases h
  · rintro (rfl | rfl) <;> rfl

/-- An operation that writes, at an address or an offset, is neither of them. -/
theorem presents_of_writes {i : Instr}
    (h : (∃ off, registerWritten i = some off) ∨ isVramWrite i = true ∨ isCramWrite i = true) : presents i = false := by
  refine Bool.eq_false_iff.mpr fun hi => ?_
  obtain rfl | rfl := presents_iff.mp hi <;> simp [registerWritten, isVramWrite, isCramWrite] at h

/-- The operation appends the outputs `new`, among them one frame where it is one that presents. -/
def Appends (i : Instr) (s t : State) (new : List Output) : Prop :=
  t.outputs = s.outputs ++ new ∧ presentCount new = if presents i then 1 else 0

/-- An operation that presents nothing and leaves the outputs as they are. -/
theorem appends_nil {i : Instr} {s t : State} (hout : t.outputs = s.outputs) (hi : presents i = false) : Appends i s t [] :=
  ⟨by rw [hout, List.append_nil], by rw [hi]; rfl⟩

/-- Every operation that ends normally appends to the outputs. -/
theorem exec_appends {i : Instr} {s t : State} (he : exec i s = .next t) : ∃ new, Appends i s t new := by
  rcases exec_next_cases he with ⟨ha, v, rfl⟩ | ⟨off, v, hr, -, rfl⟩ | ⟨hw, a, bs, -, rfl⟩ | ⟨hw, a, bs, -, -, rfl⟩ | ⟨rfl, rfl⟩
    | ⟨rfl, rfl⟩ | ⟨rfl, rfl⟩ | ⟨rfl, rfl⟩ | ⟨rfl, sf, -, rfl⟩ | ⟨rfl, sf, -, rfl⟩ | ⟨k, l, sf, rfl, -, -, rfl⟩ | ⟨rfl, rfl⟩
  · obtain ⟨-, -, -, -, -, hi⟩ := onlyAnswers_iff.mp ha
    exact ⟨_, appends_nil rfl hi⟩
  · obtain ⟨-, -, -, -, -, -, hout, -⟩ := afterRegWrite_frame off (s.setBank (regPut s.reg off v))
    exact ⟨_, appends_nil hout (presents_of_writes (.inl ⟨off, hr⟩))⟩
  · exact ⟨_, appends_nil rfl (presents_of_writes (.inr (.inl hw)))⟩
  · exact ⟨_, appends_nil rfl (presents_of_writes (.inr (.inr hw)))⟩
  · exact ⟨[.notify .hbin], rfl, rfl⟩
  · exact ⟨[.notify .hbout], rfl, rfl⟩
  · exact ⟨[.notify .vbin], rfl, rfl⟩
  · exact ⟨[.notify .vbin, .notifySlave .slaveVbin], List.append_assoc _ _ _, rfl⟩
  · exact ⟨[.present sf.w sf.h sf.px, .notify .vbout], List.append_assoc _ _ _, rfl⟩
  · exact ⟨_, appends_nil rfl rfl⟩
  · exact ⟨_, appends_nil rfl rfl⟩
  · exact ⟨[.present s.surface.w s.surface.h s.surface.px], rfl, rfl⟩

theorem execAll_cons_next {i : Instr} {rest : List Instr} {s t : State} :
    execAll (i :: rest) s = .next t ↔ ∃ mid, exec i s = .next mid ∧ execAll rest mid = .next t := by
  cases h : exec i s <;> simp [execAll, h]

/-- R246: no list of operations takes an output back. -/
theorem execAll_appends {ops : List Instr} {s t : State} (h : execAll ops s = .next t) :
    ∃ more, t.outputs = s.outputs ++ more := by
  induction ops generalizing s with
  | nil =>
    cases h
    exact ⟨[], (List.append_nil _).symm⟩
  | cons i rest ih =>
    obtain ⟨mid, hi, hrest⟩ := execAll_cons_next.mp h
    obtain ⟨new, hnew, -⟩ := exec_appends hi
    obtain ⟨more, hmore⟩ := ih hrest
    exact ⟨new ++ more, by rw [hmore, hnew, List.append_assoc]⟩

/-- Settles O59: what one operation appends, and what a list of them does. -/
theorem oneFramePerVbout : Obligations.OneFramePerVbout := by
  unfold Obligations.OneFramePerVbout
  exact ⟨fun _ => rfl, fun _ _ _ he => exec_appends he, fun _ _ _ h => execAll_appends h⟩

end Sys2Proof.Machine

/-! SUPPORT. The timing edges (R206 to R211): what SET and CLR of one status flag make of all three flags, and the state in which
each edge ends. -/

namespace Sys2Proof.Machine

open Sys2Proof.Claims

/-! ## SET and CLR of a flag (47_timing.md) -/

theorem flagWritten_setFlag (reg : Bank) {f : Field} (h : f.off = 4) : FlagWritten reg (setFlag reg f) f true := by
  refine ⟨fun o _ _ hne => regGet_regPut_other reg _ (by omega), fun j hj => ?_⟩
  rw [setFlag_getLsbD reg f (by omega) j hj]
  split <;> simp [*]

theorem flagWritten_clrFlag (reg : Bank) {f : Field} (h : f.off = 4) : FlagWritten reg (clrFlag reg f) f false := by
  refine ⟨fun o _ _ hne => regGet_regPut_other reg _ (by omega), fun j hj => ?_⟩
  rw [clrFlag_getLsbD reg f (by omega) j hj]
  split <;> simp [*]

/-- The three status flags (R13). -/
inductive StatusFlag where
  | hblank
  | vblank
  | odd
deriving DecidableEq

/-- Where the register map puts a flag. -/
def StatusFlag.field (m : RegMap) : StatusFlag → Field
  | .hblank => m.hblank
  | .vblank => m.vblank
  | .odd => m.odd

section Flags

variable {c : Config} (hc : c.wf = true)
include hc

theorem StatusFlag.field_off (k : StatusFlag) : (k.field c.regmap).off = 4 := by
  obtain ⟨-, -, -, hvblank, hhblank, hodd⟩ := RegMap.wf_offsets (Config.wf_regmap hc)
  cases k with
  | hblank => exact hhblank
  | vblank => exact hvblank
  | odd => exact hodd

theorem StatusFlag.field_bit (k : StatusFlag) : (k.field c.regmap).width = 1 ∧ (k.field c.regmap).lsb < 16 := by
  obtain ⟨-, -, -, hvblankBit, hhblankBit, hoddBit, hvblankWidth, hhblankWidth, hoddWidth⟩ := Config.wf_flags hc
  cases k with
  | hblank => exact ⟨hhblankWidth, hhblankBit⟩
  | vblank => exact ⟨hvblankWidth, hvblankBit⟩
  | odd => exact ⟨hoddWidth, hoddBit⟩

/-- Different flags are different bits of the status register. -/
theorem StatusFlag.field_lsb_inj {k l : StatusFlag} : (k.field c.regmap).lsb = (l.field c.regmap).lsb ↔ k = l := by
  obtain ⟨hvh, hvo, hho, -⟩ := Config.wf_flags hc
  cases k <;> cases l <;> simp [StatusFlag.field, hvh, hvo, hho, hvh.symm, hvo.symm, hho.symm]

/-- A write of one flag gives that flag its value and keeps the other two. -/
theorem fld_of_flagWritten {reg reg' : Bank} {k : StatusFlag} {b : Bool} (h : FlagWritten reg reg' (k.field c.regmap) b)
    (l : StatusFlag) : fld reg' (l.field c.regmap) = if l = k then b.toNat else fld reg (l.field c.regmap) := by
  obtain ⟨hwidth, hlsb⟩ := l.field_bit hc
  obtain ⟨-, hbits⟩ := h
  rw [k.field_off hc] at hbits
  rw [fld_oneBit _ _ hwidth, fld_oneBit _ _ hwidth, l.field_off hc, hbits _ hlsb]
  simp only [StatusFlag.field_lsb_inj hc, apply_ite Bool.toNat]

theorem fld_setFlag (reg : Bank) (k l : StatusFlag) :
    fld (setFlag reg (k.field c.regmap)) (l.field c.regmap) = if l = k then 1 else fld reg (l.field c.regmap) :=
  fld_of_flagWritten hc (flagWritten_setFlag reg (k.field_off hc)) l

theorem fld_clrFlag (reg : Bank) (k l : StatusFlag) :
    fld (clrFlag reg (k.field c.regmap)) (l.field c.regmap) = if l = k then 0 else fld reg (l.field c.regmap) :=
  fld_of_flagWritten hc (flagWritten_clrFlag reg (k.field_off hc)) l

end Flags

/-! ## The states in which the edges end -/

/-- What VBIN notifies: the interrupt controller, then the slave unit where it is active (R208). -/
def vbinOutputs (slaveActive : Bool) : List Output :=
  .notify .vbin :: if slaveActive then [.notifySlave .slaveVbin] else []

/-- The state in which VBIN ends (R208). -/
def afterVbin (slaveActive : Bool) (s : State) : State :=
  { s with reg := setFlag s.reg s.config.regmap.vblank, outputs := s.outputs ++ vbinOutputs slaveActive }

theorem exec_vbin (slaveActive : Bool) (s : State) : exec (.vbin slaveActive) s = .next (afterVbin slaveActive s) := by
  cases slaveActive
  case false => rfl
  case true => exact congrArg (fun out => Host.Outcome.next { afterVbin true s with outputs := out }) (List.append_assoc _ _ _)

/-- The state in which VBOUT ends where its frame is `sf` (R209). -/
def afterVbout (s : State) (sf : Surface) : State :=
  { vboutFlags s with surface := sf, outputs := s.outputs ++ [.present sf.w sf.h sf.px, .notify .vbout] }

@[simp] theorem vboutFlags_sprite (s : State) : (vboutFlags s).sprite = s.sprite := rfl

/-- VBOUT ends with the frame drawn after the flags were updated (R209). -/
theorem exec_vbout_ok {s : State} {sf : Surface} (h : drawFrame (vboutFlags s).snap s.sprite = .ok sf) :
    exec .vbout s = .next (afterVbout s sf) := by
  have hd : drawFrameOn (vboutFlags s) = .ok ((vboutFlags s).setSurface sf) := by
    rw [drawFrameOn, vboutFlags_sprite, h]
  simp only [exec, execVbout, hd]
  exact congrArg (fun out => Host.Outcome.next { afterVbout s sf with outputs := out }) (List.append_assoc _ _ _)

/-- A refusal of the frame is a refusal of the whole event (R224). -/
theorem exec_vbout_error {s : State} {r : Refusal} (h : drawFrame (vboutFlags s).snap s.sprite = .error r) :
    exec .vbout s = .refused r := by
  have hd : drawFrameOn (vboutFlags s) = .error r := by
    rw [drawFrameOn, vboutFlags_sprite, h]
  simp only [exec, execVbout, hd, refuse]

theorem exec_vbout_next {s t : State} :
    exec .vbout s = .next t ↔ ∃ sf, drawFrame (vboutFlags s).snap s.sprite = .ok sf ∧ t = afterVbout s sf := by
  cases h : drawFrame (vboutFlags s).snap s.sprite with
  | ok sf => simp [exec_vbout_ok h, eq_comm]
  | error r => simp [exec_vbout_error h]

theorem exec_drawframe_refused {s : State} {r : Refusal} :
    exec .drawframe s = .refused r ↔ drawFrame s.snap s.sprite = .error r := by
  rw [exec_drawframe]
  cases drawFrame s.snap s.sprite <;> simp [drawOutcome]

/-- Settles O51: each edge is SET or CLR of its flag and its notifications. -/
theorem blankingEdgesWriteOneFlag : Obligations.BlankingEdgesWriteOneFlag := by
  unfold Obligations.BlankingEdgesWriteOneFlag
  intro s hc
  have hhblank := StatusFlag.hblank.field_off hc
  have hvblank := StatusFlag.vblank.field_off hc
  exact ⟨⟨_, flagWritten_setFlag s.reg hhblank, rfl⟩, ⟨_, flagWritten_clrFlag s.reg hhblank, rfl⟩,
    ⟨_, flagWritten_setFlag s.reg hvblank, exec_vbin false s, exec_vbin true s⟩⟩

/-- Settles O52: the frame that VBOUT presents is the one DRAWFRAME draws after the two flag updates. -/
theorem vboutDrawsPresentsNotifies : Obligations.VboutDrawsPresentsNotifies := by
  unfold Obligations.VboutDrawsPresentsNotifies
  intro s hc
  refine ⟨_, _, flagWritten_clrFlag s.reg (StatusFlag.vblank.field_off hc), flagWritten_setFlag _ (StatusFlag.odd.field_off hc),
    fun t ht => ?drawn, fun x hx => exec_vbout_error (exec_drawframe_refused.mp hx)⟩
  case drawn =>
    obtain ⟨sf, hd, rfl⟩ := exec_drawframe_next.mp ht
    exact exec_vbout_ok hd

/-! ## The blanking phase (R210, R211) -/

section Phase

variable {s : State} (hc : s.config.wf = true)
include hc

/-- VBIN sets VBLANK and keeps the other flags. -/
theorem fld_afterVbin (slaveActive : Bool) (l : StatusFlag) : fld (afterVbin slaveActive s).reg (l.field s.config.regmap)
    = if l = .vblank then 1 else fld s.reg (l.field s.config.regmap) :=
  fld_setFlag hc s.reg .vblank l

/-- VBOUT clears VBLANK, sets ODD and keeps HBLANK. -/
theorem fld_afterVbout (sf : Surface) (l : StatusFlag) : fld (afterVbout s sf).reg (l.field s.config.regmap)
    = if l = .odd then 1 else if l = .vblank then 0 else fld s.reg (l.field s.config.regmap) := by
  rw [← fld_clrFlag hc s.reg .vblank l]
  exact fld_setFlag hc _ .odd l

theorem flags_afterVbout (sf : Surface) :
    hblank (afterVbout s sf) = hblank s ∧ vblank (afterVbout s sf) = 0 ∧ odd (afterVbout s sf) = 1 :=
  ⟨fld_afterVbout hc sf .hblank, fld_afterVbout hc sf .vblank, fld_afterVbout hc sf .odd⟩

end Phase

/-- A register write away from 0x004 stores to another register than the status register. -/
theorem registerWritten_ne_status {i : Instr} {off : Nat} (hi : notStatusWrite i) (h : registerWritten i = some off) :
    off ≠ 0x004 := by
  cases i
  case regwr o v =>
    rintro rfl
    exact hi (BitVec.eq_of_toNat_eq (Option.some.inj h))
  case regwrRes | regwrRammode | regwrPri0F8 | regwrPri0FA | regwrPri0FC => cases h; decide
  all_goals cases h

/-- R211: apart from a host write of the status register, nothing but VBOUT touches ODD. -/
theorem odd_of_exec {i : Instr} {s t : State} (hc : s.config.wf = true) (he : exec i s = .next t) (hvbout : i ≠ .vbout)
    (hstatus : notStatusWrite i) : odd t = odd s := by
  rcases exec_next_cases he with ⟨-, v, rfl⟩ | ⟨off, v, hr, ho, rfl⟩ | ⟨-, a, bs, -, rfl⟩ | ⟨-, a, bs, -, -, rfl⟩ | ⟨-, rfl⟩
    | ⟨-, rfl⟩ | ⟨-, rfl⟩ | ⟨-, rfl⟩ | ⟨hi, -⟩ | ⟨-, sf, -, rfl⟩ | ⟨k, l, sf, -, -, -, rfl⟩ | ⟨-, rfl⟩
  · rfl
  · have hne := registerWritten_ne_status hstatus hr
    have hodd : s.config.regmap.odd.off = 4 := StatusFlag.odd.field_off hc
    obtain ⟨heven, -⟩ := (offsetOk_iff off).mp ho
    obtain ⟨hreg, -, -, -, -, -, -, hconfig⟩ := afterRegWrite_frame off (s.setBank (regPut s.reg off v))
    rw [odd, hreg, hconfig]
    exact fld_regPut_other s.reg s.config.regmap.odd v (by omega)
  · rfl
  · rfl
  · exact fld_setFlag hc s.reg .hblank .odd
  · exact fld_clrFlag hc s.reg .hblank .odd
  · exact fld_setFlag hc s.reg .vblank .odd
  · exact fld_setFlag hc s.reg .vblank .odd
  · exact absurd hi hvbout
  · rfl
  · rfl
  · rfl

/-- Settles O54: the flags of the state in which each edge ends. -/
theorem blankingPhaseTable : Obligations.BlankingPhaseTable := by
  unfold Obligations.BlankingPhaseTable
  intro i s t hc he
  refine ⟨?hbin, ?hbout, ?vbin, ?vbout, odd_of_exec hc he⟩
  case hbin =>
    rintro rfl
    cases he
    exact ⟨fld_setFlag hc s.reg .hblank .hblank, fld_setFlag hc s.reg .hblank .vblank⟩
  case hbout =>
    rintro rfl
    cases he
    exact ⟨fld_clrFlag hc s.reg .hblank .hblank, fld_clrFlag hc s.reg .hblank .vblank⟩
  case vbin =>
    rintro b rfl
    cases (exec_vbin b s).symm.trans he
    exact ⟨fld_afterVbin hc b .hblank, fld_afterVbin hc b .vblank⟩
  case vbout =>
    rintro rfl
    obtain ⟨sf, -, rfl⟩ := exec_vbout_next.mp he
    exact flags_afterVbout hc sf

/-! ## VBIN and the VBOUT that follows it (R216) -/

theorem presentCount_append (out new : List Output) : presentCount (out ++ new) = presentCount out + presentCount new := by
  induction out with
  | nil => simp [presentCount]
  | cons o rest ih => cases o <;> simp [presentCount, ih, Nat.add_right_comm]

/-- An operation that ends normally presents one frame more where it is one that presents, and none otherwise. -/
theorem presentCount_of_exec {i : Instr} {s t : State} (he : exec i s = .next t) :
    presentCount t.outputs = presentCount s.outputs + if presents i then 1 else 0 := by
  obtain ⟨new, hout, hcount⟩ := exec_appends he
  rw [hout, presentCount_append, hcount]

/-- Settles O56: the flags of the two states, and the frames that the two operations present. -/
theorem vbinThenVboutPresentsOneFrame : Obligations.VbinThenVboutPresentsOneFrame := by
  unfold Obligations.VbinThenVboutPresentsOneFrame
  intro s slave hc
  refine ⟨afterVbin slave s, exec_vbin slave s, fld_afterVbin hc slave .vblank, presentCount_of_exec (exec_vbin slave s),
    fun u hu => ⟨?vblank, presentCount_of_exec hu⟩⟩
  case vblank =>
    obtain ⟨sf, -, rfl⟩ := exec_vbout_next.mp hu
    obtain ⟨-, hvblank, -⟩ := flags_afterVbout (s := afterVbin slave s) hc sf
    exact hvblank

end Sys2Proof.Machine

/-! SUPPORT. Which frames are refused (R224), and the frame of VBOUT under the default register map (R209, R215). -/

namespace Sys2Proof.Machine

open Sys2Proof.Claims

/-! ## Which frames are drawn -/

theorem mem_drawOrder {c : Config} {reg : Bank} {port : SpritePort} {l : Layer} :
    l ∈ drawOrder c reg port ↔ layerKept c reg port l = true := by
  rw [drawOrder, (sortLayers_perm _ _).mem_iff, List.mem_filter]
  exact and_iff_right (mem_allLayers l)

/-- Layers are drawn one after the other exactly where each of them is drawable. -/
theorem drawLayers_ok_iff {v : Snap} {port : SpritePort} {ls : List Layer} {sf : Surface} :
    (∃ sf', drawLayers v port ls sf = .ok sf') ↔ ∀ l ∈ ls, layerDrawable v.config v.reg l = true := by
  induction ls generalizing sf with
  | nil => simp [drawLayers]
  | cons l rest ih =>
    rw [List.forall_mem_cons, layerDrawable_iff (port := port)]
    simp only [drawLayers_cons_ok]
    constructor
    · rintro ⟨sf', mid, hl, hrest⟩
      cases hsrc : layerSource v port l with
      | ok src => exact ⟨⟨src, rfl⟩, ih.mp ⟨sf', hrest⟩⟩
      | error r => simp [drawLayer, hsrc] at hl
    · rintro ⟨⟨src, hsrc⟩, hrest⟩
      obtain ⟨sf', hsf'⟩ := ih (sf := paintSurface sf src) |>.mpr hrest
      exact ⟨sf', _, by rw [drawLayer, hsrc], hsf'⟩

/-- R224: a frame is drawn exactly where the display is off or every layer to be drawn is drawable. -/
theorem drawFrame_ok_iff {s : State} :
    (∃ sf, drawFrame s.snap s.sprite = .ok sf) ↔ frameDrawable s.config s.reg s.sprite := by
  unfold frameDrawable
  by_cases hdisp : fld s.reg s.config.regmap.disp = 1
  · rw [drawFrame_on hdisp, drawLayers_ok_iff]
    simp [hdisp, mem_drawOrder, mem_allLayers]
  · simp [drawFrame_off hdisp, hdisp]

/-! ## The reasons of a refused frame -/

/-- The two reserved modes for which drawing is refused (R224). -/
def IsReservedMode (r : Refusal) : Prop := r = .reservedDepth ∨ r = .reservedAuxMode

theorem layerInitOf_error {v : Snap} {b : Bg} {r : Refusal} (h : layerInitOf v b = .error r) : r = .reservedDepth := by
  unfold layerInitOf at h
  rcases Nat.lt_or_ge 4 (fld v.reg (layerFields v.config b).chcn) with hres | hok
  · rw [depthOf_reserved hres] at h
    exact (Except.error.inj h).symm
  · obtain ⟨d, hd⟩ := depthOf_ok hok
    rw [hd] at h
    cases h

theorem pixelPathOf_error_reason {g : LayerCfg} {r : Refusal} (h : pixelPathOf g = .error r) : r = .reservedAuxMode := by
  cases hb : g.bitmap
  case true => cases (pixelPathOf_bitmap hb).symm.trans h
  case false =>
    cases hform : pnFormOf g with
    | ok f => cases (pixelPathOf_tile hb hform).symm.trans h
    | error r' =>
      cases (pixelPathOf_error hb hform).symm.trans h
      obtain ⟨hr, -, -⟩ := pnFormOf_error hform
      exact hr

theorem layerSource_error {v : Snap} {port : SpritePort} {l : Layer} {r : Refusal} (h : layerSource v port l = .error r) :
    IsReservedMode r := by
  rcases l with b | _
  case sprite => cases h
  case bg =>
    cases hg : layerInitOf v b with
    | error r' =>
      simp only [layerSource, hg, Except.error.injEq] at h
      exact .inl (h ▸ layerInitOf_error hg)
    | ok g =>
      cases hp : pixelPathOf g with
      | error r' =>
        simp only [layerSource, hg, hp, Except.error.injEq] at h
        exact .inr (h ▸ pixelPathOf_error_reason hp)
      | ok p => simp [layerSource, hg, hp] at h

theorem drawLayers_error {v : Snap} {port : SpritePort} {ls : List Layer} {sf : Surface} {r : Refusal}
    (h : drawLayers v port ls sf = .error r) : IsReservedMode r := by
  induction ls generalizing sf with
  | nil => cases h
  | cons l rest ih =>
    cases hsrc : layerSource v port l with
    | ok src =>
      simp only [drawLayers, drawLayer, hsrc] at h
      exact ih h
    | error r' =>
      simp only [drawLayers, drawLayer, hsrc, Except.error.injEq] at h
      exact h ▸ layerSource_error hsrc

theorem drawFrame_error {s : State} {r : Refusal} (h : drawFrame s.snap s.sprite = .error r) : IsReservedMode r := by
  by_cases hdisp : fld s.reg s.config.regmap.disp = 1
  · exact drawLayers_error (drawFrame_on hdisp ▸ h)
  · cases (drawFrame_off hdisp).symm.trans h

/-! ## The frame of VBOUT -/

/-- A write of the register that holds the flags does not enter the frame (R249). -/
theorem drawFrame_putFlag {v : Snap} (hv : v.config = Config.default) (port : SpritePort) (k : StatusFlag) (w : Word16) :
    drawFrame { v with reg := regPut v.reg (k.field v.config.regmap).off w } port = drawFrame v port := by
  rw [k.field_off (hv ▸ Config.default_wf)]
  exact drawFrame_putStatus w hv port

/-- So the flag updates of VBOUT do not: each is such a write. -/
theorem drawFrame_vboutFlags {s : State} (hc : s.config = Config.default) :
    drawFrame (vboutFlags s).snap s.sprite = drawFrame s.snap s.sprite := by
  have hodd := drawFrame_putFlag (v := { s.snap with reg := clrFlag s.reg s.config.regmap.vblank }) hc s.sprite .odd
  have hvblank := drawFrame_putFlag (v := s.snap) hc s.sprite .vblank
  exact (hodd _).trans (hvblank _)

/-- Settles O53: DRAWFRAME and VBOUT draw one frame, which is refused exactly on a reserved mode. -/
theorem frameIsRefusedExactlyOnReservedModes : Obligations.FrameIsRefusedExactlyOnReservedModes := by
  unfold Obligations.FrameIsRefusedExactlyOnReservedModes
  intro s hc
  have hvbout := drawFrame_vboutFlags hc
  rw [← drawFrame_ok_iff]
  refine ⟨fun ⟨sf, hd⟩ => ⟨⟨_, exec_drawframe_ok hd⟩, _, exec_vbout_ok (hvbout.trans hd)⟩, fun hno => ?refused⟩
  case refused =>
    cases hd : drawFrame s.snap s.sprite with
    | ok sf => exact absurd ⟨sf, hd⟩ hno
    | error r => exact ⟨r, exec_drawframe_error hd, exec_vbout_error (hvbout.trans hd), drawFrame_error hd⟩

/-- Settles O55: with the display off the frame is the cleared surface. -/
theorem disabledDisplayPresentsClear : Obligations.DisabledDisplayPresentsClear := by
  unfold Obligations.DisabledDisplayPresentsClear
  intro s hc hdisp
  have hd := (drawFrame_vboutFlags hc).trans (drawFrame_off (s := s) (by omega))
  obtain ⟨hhblank, hvblank, hodd⟩ := flags_afterVbout (s := s) (hc ▸ Config.default_wf) (clearedSurface s.snap)
  refine ⟨afterVbout s (clearedSurface s.snap), clearedSurface s.snap, exec_vbout_ok hd, rfl, rfl, fun x y hx hy => ?clear, rfl,
    hvblank, hodd, hhblank⟩
  case clear =>
    calc surfaceAt (clearedSurface s.snap) x y = s.config.clear := surfaceAt_buildSurface _ hx hy
      _ = Config.default.clear := by rw [hc]

end Sys2Proof.Machine

/-! SUPPORT. The port contract (R44, R222): which operations fault, and where. -/

namespace Sys2Proof.Machine

/-- An operation that first checks the contract of its operands, and then ends normally, faults exactly out of contract. -/
theorem fault_iff_of_checked {i : Instr} {s t : State} {ok : Bool} {cause : Fault}
    (hexec : exec i s = if ok then .next t else raise cause) (hok : inContract s.config i = ok) :
    inContract s.config i = false ↔ ∃ f, exec i s = .fault f := by
  rw [hexec, hok]
  cases ok <;> simp [raise]

/-- A register write in any form. -/
theorem fault_iff_of_regWrite {i : Instr} {s : State} {off : Nat} {val : Word16} (hexec : exec i s = hostRegWrite off val s)
    (hok : inContract s.config i = offsetOk off) : inContract s.config i = false ↔ ∃ f, exec i s = .fault f :=
  fault_iff_of_checked hexec hok

/-- A timing edge is accepted in every state (R205). -/
theorem exec_edge_ne_fault {i : Instr} (hi : isEdge i = true) (s : State) (f : Fault) : exec i s ≠ .fault f := by
  cases i
  case hbin | hbout | vbin => nofun
  case vbout =>
    cases hd : drawFrame (vboutFlags s).snap s.sprite with
    | ok sf => simp [exec_vbout_ok hd]
    | error r => simp [exec_vbout_error hd]
  all_goals cases hi

/-- Settles O60: a host transaction checks its contract first, and an edge has none. -/
theorem eventsFaultExactlyOutOfContract : Obligations.EventsFaultExactlyOutOfContract := by
  unfold Obligations.EventsFaultExactlyOutOfContract
  intro i s hevent
  have hedge (h : isEdge i = true) (hok : inContract s.config i = true) :
      inContract s.config i = false ↔ ∃ f, exec i s = .fault f := by
    simp [hok, exec_edge_ne_fault h]
  cases i
  case hbin | hbout | vbin | vbout => exact hedge rfl rfl
  case regwrRes val => exact fault_iff_of_regWrite (off := 0x000) (val := val) rfl rfl
  case regwrRammode val => exact fault_iff_of_regWrite (off := 0x00E) (val := val) rfl rfl
  case regwrPri0F8 val => exact fault_iff_of_regWrite (off := 0x0F8) (val := val) rfl rfl
  case regwrPri0FA val => exact fault_iff_of_regWrite (off := 0x0FA) (val := val) rfl rfl
  case regwrPri0FC val => exact fault_iff_of_regWrite (off := 0x0FC) (val := val) rfl rfl
  case regwr | regrd => exact fault_iff_of_checked rfl rfl
  case vramwrB | vramwrW | vramwrL | vramrdB | vramrdW | vramrdL => exact fault_iff_of_checked rfl rfl
  case cramwrB | cramwrW | cramwrL | cramrdB | cramrdW | cramrdL => exact fault_iff_of_checked rfl rfl
  all_goals cases hevent

end Sys2Proof.Machine

/-! SUPPORT. The two halves of colour memory in legacy mode (R93, R247). -/

namespace Sys2Proof.Machine

open Sys2Proof.Claims

/-- A store with its mirror keeps equal halves equal: both halves have the byte stored, or both have what they had. -/
theorem halvesEqual_of_storedTwice {s : State} {m : Memory} {mirrored : Prop} {addr n v : Nat} (hmirrored : mirrored)
    (hstored : StoredTwice mirrored s.cram m addr n v) (h : HalvesEqual s) : HalvesEqual (s.setCram m) := by
  intro a ha
  have hback : (a + 0x800 + 0x800) % 0x1000 = a := by omega
  have hforth : (a + 0x800) % 0x1000 = a + 0x800 := by omega
  have hlow := hstored a (by omega)
  have hhigh := hstored (a + 0x800) (by omega)
  simp only [hback, hforth] at hlow hhigh
  obtain ⟨hlowDirect, hlowMirror, hlowOther⟩ := hlow
  obtain ⟨hhighDirect, hhighMirror, hhighOther⟩ := hhigh
  by_cases hinLow : addr ≤ a ∧ a < addr + n
  · exact BitVec.eq_of_toNat_eq ((hhighMirror hmirrored hinLow).trans (hlowDirect hinLow).symm)
  by_cases hinHigh : addr ≤ a + 0x800 ∧ a + 0x800 < addr + n
  · exact BitVec.eq_of_toNat_eq ((hhighDirect hinHigh).trans (hlowMirror hmirrored hinHigh).symm)
  · exact (hhighOther hinHigh fun ⟨_, hin⟩ => hinLow hin).trans
      ((h a ha).trans (hlowOther hinLow fun ⟨_, hin⟩ => hinHigh hin).symm)

/-- Every host write of colour memory is the write of R93 at its width. -/
theorem exists_colourMemoryWrite {i : Instr} {s : State} (hs : Inv s) (hi : isCramWrite i = true) :
    ∃ addr n v, ColourMemoryWrite s i addr n v := by
  have hwrite := colourMemoryWriteMirrorsInLegacyMode
  unfold Obligations.ColourMemoryWriteMirrorsInLegacyMode at hwrite
  cases i
  case cramwrB addr val =>
    obtain ⟨hbyte, -, -⟩ := hwrite s addr hs
    exact ⟨_, _, _, hbyte val⟩
  case cramwrW addr val =>
    obtain ⟨-, hword, -⟩ := hwrite s addr hs
    exact ⟨_, _, _, hword val⟩
  case cramwrL addr val =>
    obtain ⟨-, -, hlong⟩ := hwrite s addr hs
    exact ⟨_, _, _, hlong val⟩
  all_goals cases hi

/-- A host write of colour memory that ends normally stored its bytes, twice in legacy mode. -/
theorem storedTwice_of_colourMemoryWrite {i : Instr} {s t : State} {addr n v : Nat} (h : ColourMemoryWrite s i addr n v)
    (he : exec i s = .next t) :
    ∃ m, t = s.setCram m ∧ StoredTwice (cramModeOf s.config s.reg = .legacy) s.cram m addr n v := by
  obtain ⟨hin, hout⟩ := h
  by_cases hok : addr % n = 0 ∧ addr + n ≤ 0x1000
  · obtain ⟨m, hexec, hstored⟩ := hin hok
    cases hexec.symm.trans he
    exact ⟨m, rfl, hstored⟩
  · cases (hout hok).symm.trans he

/-- Settles O22: a host write of colour memory is mirrored, and no other operation changes colour memory (R51). -/
theorem legacyHalvesStayEqual : Obligations.LegacyHalvesStayEqual := by
  unfold Obligations.LegacyHalvesStayEqual
  intro i s t hs hmode hhalves he
  cases hi : isCramWrite i
  case true =>
    obtain ⟨addr, n, v, hwrite⟩ := exists_colourMemoryWrite hs hi
    obtain ⟨m, rfl, hstored⟩ := storedTwice_of_colourMemoryWrite hwrite he
    exact halvesEqual_of_storedTwice hmode hstored hhalves
  case false =>
    have hwho := whoWritesWhat
    unfold Obligations.WhoWritesWhat at hwho
    obtain ⟨-, -, -, -, hcram, -⟩ := hwho i s t hs.configWf he
    rw [HalvesEqual, hcram hi]
    exact hhalves

end Sys2Proof.Machine
